-- ==== Sys2Proof/Word.lean ====
section
/-! DEFINITION. The word types of the LIN slave protocol engine: the 32-bit operation word (R70), bytes (R56),
the 6-bit frame ID, the 4-bit length and index fields (R24, R27) and the 32-bit time counter (R29). -/

namespace Sys2Proof

/-- A byte: the SYNC byte, a PID, a data byte, a checksum, an echo (R56). -/
abbrev Byte := BitVec 8

/-- An operation word (R70). It is a value on the command port and has no byte order (R58). -/
abbrev Word := BitVec 32

/-- An unprotected frame ID, 0..63 (R24). -/
abbrev FrameId := BitVec 6

/-- The 4-bit length and index fields FC.len, FC.idx, TABLE[i].len and LF.len (R24, R27, R28). -/
abbrev Nibble := BitVec 4

/-- NOW, FC.t_last and T_TIMEOUT: 32 bits, arithmetic modulo 2^32 (R29, D11). -/
abbrev Time := BitVec 32

end Sys2Proof
end

