-- ==== Sys2Proof/Syntax.lean ====
section
/-! DEFINITION. The operations of the engine: the names of the opcode map (R76), the agents that issue them (R7)
and the decoded operations with their operands (R71 to R75). -/

namespace Sys2Proof

/-- Who issues an operation (R7). -/
inductive Agent where
  | consumer
  | transport
  | environment
deriving DecidableEq, Repr

/-- The thirteen rows of the opcode map (R76). -/
inductive Op where
  | openIf | closeIf | regMreq | regSresp | process | getState | getError | resetError | resetSm
  | getLastFrame | breakIn | rxByte | tick
deriving DecidableEq, Repr

/-- The five layouts of an operation word (R71 to R75). -/
inductive Format where
  | o | b | t | u | r
deriving DecidableEq, Repr

/-- An operation with its operands, one constructor per row of `spec/opcode_table.json`. -/
inductive Instr where
  /-- OPEN (R200): the baud rate of format U (R74). -/
  | openIf (baud : BitVec 24)
  /-- CLOSE (R201). -/
  | closeIf
  /-- REG_MREQ (R170): the supplied ID, numData, the present bit and the handle of format R (R75). -/
  | regMreq (idraw len : Byte) (p : Bool) (h : Byte)
  /-- REG_SRESP (R171): operands as REG_MREQ. -/
  | regSresp (idraw len : Byte) (p : Bool) (h : Byte)
  /-- PROCESS (R120). -/
  | process
  /-- GET_STATE (R181). -/
  | getState
  /-- GET_ERROR (R182). -/
  | getError
  /-- RESET_ERROR (R183). -/
  | resetError
  /-- RESET_SM (R184). -/
  | resetSm
  /-- GET_LAST_FRAME (R180). -/
  | getLastFrame
  /-- BREAK_IN (R202). -/
  | breakIn
  /-- RX_BYTE (R203): the received byte of format B (R72). -/
  | rxByte (b : Byte)
  /-- TICK (R204): the 28-bit delta of format T (R73). -/
  | tick (d : BitVec 28)
deriving DecidableEq, Repr

/-- The row of the opcode map an operation belongs to. -/
def Instr.op : Instr → Op
  | .openIf _ => .openIf
  | .closeIf => .closeIf
  | .regMreq _ _ _ _ => .regMreq
  | .regSresp _ _ _ _ => .regSresp
  | .process => .process
  | .getState => .getState
  | .getError => .getError
  | .resetError => .resetError
  | .resetSm => .resetSm
  | .getLastFrame => .getLastFrame
  | .breakIn => .breakIn
  | .rxByte _ => .rxByte
  | .tick _ => .tick

/-- The agent column of the opcode map (R76, R230). -/
def Op.agent : Op → Agent
  | .openIf | .closeIf | .regMreq | .regSresp | .process | .getState | .getError | .resetError
  | .resetSm | .getLastFrame => .consumer
  | .breakIn | .rxByte => .transport
  | .tick => .environment

/-- The agent that issues an operation (R7). The word does not carry it and the engine does not check it (R230):
DESIGN CHOICE, assumption 8. -/
def Instr.agent (i : Instr) : Agent := i.op.agent

end Sys2Proof
end

