-- ==== Sys2Proof/WellFormed.lean ====
section
/-! DEFINITION. When a decoded operation is in the one form the decoder gives: the two fields of format R that
decoding discards are zero (R92). Every other operand is held in exactly its field's width (R71 to R75). A length
above 8 is well formed: such a word decodes, and the contract fault is the operation's (R75, R172). -/

namespace Sys2Proof

/-- Bits 7:6 of the supplied ID are zero: decoding discards them (R89, R92). -/
def idMasked (idraw : Byte) : Bool := idraw &&& 0xC0#8 == 0#8

/-- A null callback carries the handle 0: decoding ignores H when P = 0 (R89, R92). -/
def handleCanonical (p : Bool) (h : Byte) : Bool := p || h == 0#8

/-- The form of an operation that decoding a word gives. -/
def Instr.wellFormed : Instr → Bool
  | .regMreq idraw _ p h => idMasked idraw && handleCanonical p h
  | .regSresp idraw _ p h => idMasked idraw && handleCanonical p h
  | .openIf _ => true
  | .closeIf => true
  | .process => true
  | .getState => true
  | .getError => true
  | .resetError => true
  | .resetSm => true
  | .getLastFrame => true
  | .breakIn => true
  | .rxByte _ => true
  | .tick _ => true

end Sys2Proof
end

