-- ==== Sys2Proof/Decode.lean ====
section
/-! DEFINITION. The decoder, total on all 2^32 words (R77), written from the opcode map (R76) and the formats
(R71 to R75), and the encoder written from the same formats. -/

namespace Sys2Proof

/-- A row of the opcode map (R76): a word selects it iff its masked bits are the pattern. -/
structure OpRow where
  op : Op
  format : Format
  pat : Word
  mask : Word
deriving DecidableEq, Repr

/-- Why the decoder refuses a word (R77). -/
inductive DecodeRefusal where
  /-- The opcode is 0x0, 0xE or 0xF. -/
  | reservedOpcode (opcode : BitVec 4)
  /-- A must-be-zero bit of the operation's format is 1. -/
  | mustBeZero (op : Op)
deriving DecidableEq, Repr

/-- What the decoder answers: the operation, or the reason it refuses the word. -/
inductive Decoded where
  | instr (i : Instr)
  | refused (why : DecodeRefusal)
deriving DecidableEq, Repr

/-- The opcode map (R76), as `spec/opcode_table.json` lists it. -/
def opRows : List OpRow :=
  [ ⟨.openIf, .u, 0x10000000#32, 0xFF000000#32⟩,
    ⟨.closeIf, .o, 0x20000000#32, 0xFFFFFFFF#32⟩,
    ⟨.regMreq, .r, 0x30000000#32, 0xF0070000#32⟩,
    ⟨.regSresp, .r, 0x40000000#32, 0xF0070000#32⟩,
    ⟨.process, .o, 0x50000000#32, 0xFFFFFFFF#32⟩,
    ⟨.getState, .o, 0x60000000#32, 0xFFFFFFFF#32⟩,
    ⟨.getError, .o, 0x70000000#32, 0xFFFFFFFF#32⟩,
    ⟨.resetError, .o, 0x80000000#32, 0xFFFFFFFF#32⟩,
    ⟨.resetSm, .o, 0x90000000#32, 0xFFFFFFFF#32⟩,
    ⟨.getLastFrame, .o, 0xA0000000#32, 0xFFFFFFFF#32⟩,
    ⟨.breakIn, .o, 0xB0000000#32, 0xFFFFFFFF#32⟩,
    ⟨.rxByte, .b, 0xC0000000#32, 0xFFFFFF00#32⟩,
    ⟨.tick, .t, 0xD0000000#32, 0xF0000000#32⟩ ]

/-- Bits [31:28] of a word (R70). -/
def opcodeOf (w : Word) : BitVec 4 := w.extractLsb' 28 4

/-- A word selects a row iff `(word & mask) == match` (R76). -/
def OpRow.selects (r : OpRow) (w : Word) : Bool := w &&& r.mask == r.pat

/-- The row of an opcode, none for the reserved opcodes (R76, R77). -/
def rowOf (opcode : BitVec 4) : Option OpRow := opRows.find? (fun r => opcodeOf r.pat == opcode)

/-- `b` of format B (R72). -/
def fieldB (w : Word) : Byte := w.extractLsb' 0 8

/-- `d` of format T (R73). -/
def fieldD (w : Word) : BitVec 28 := w.extractLsb' 0 28

/-- `baud` of format U (R74). -/
def fieldBaud (w : Word) : BitVec 24 := w.extractLsb' 0 24

/-- `idraw` of format R (R75). -/
def fieldIdraw (w : Word) : Byte := w.extractLsb' 0 8

/-- `len` of format R (R75). -/
def fieldLen (w : Word) : Byte := w.extractLsb' 8 8

/-- `P` of format R (R75). -/
def fieldP (w : Word) : Bool := w.getLsbD 19

/-- `H` of format R (R75). -/
def fieldH (w : Word) : Byte := w.extractLsb' 20 8

/-- Decoding discards bits 7:6 of the supplied ID (R89, R92). -/
def decodedId (w : Word) : Byte := fieldIdraw w &&& 0x3F#8

/-- Decoding takes H as is when P = 1 and as 0 when P = 0 (R89). -/
def decodedH (w : Word) : Byte := if fieldP w then fieldH w else 0#8

/-- The operation a word of a row's format stands for (R71 to R75, R89). -/
def Op.build (w : Word) : Op → Instr
  | .openIf => .openIf (fieldBaud w)
  | .closeIf => .closeIf
  | .regMreq => .regMreq (decodedId w) (fieldLen w) (fieldP w) (decodedH w)
  | .regSresp => .regSresp (decodedId w) (fieldLen w) (fieldP w) (decodedH w)
  | .process => .process
  | .getState => .getState
  | .getError => .getError
  | .resetError => .resetError
  | .resetSm => .resetSm
  | .getLastFrame => .getLastFrame
  | .breakIn => .breakIn
  | .rxByte => .rxByte (fieldB w)
  | .tick => .tick (fieldD w)

/-- The decoder (R76, R77): total, one word per operation (R93). -/
def decode (w : Word) : Decoded :=
  match rowOf (opcodeOf w) with
  | none => .refused (.reservedOpcode (opcodeOf w))
  | some r => if r.selects w then .instr (r.op.build w) else .refused (.mustBeZero r.op)

/-- A field's value at its place in the word, its lowest bit at bit `lo` (R8). -/
def placed {n : Nat} (x : BitVec n) (lo : Nat) : Word := x.setWidth 32 <<< lo

/-- The word of a format O operation (R71). -/
def encodeO (opcode : BitVec 4) : Word := placed opcode 28

/-- The word of a format B operation (R72). -/
def encodeB (opcode : BitVec 4) (b : Byte) : Word := placed opcode 28 ||| placed b 0

/-- The word of a format T operation (R73). -/
def encodeT (opcode : BitVec 4) (d : BitVec 28) : Word := placed opcode 28 ||| placed d 0

/-- The word of a format U operation (R74). -/
def encodeU (opcode : BitVec 4) (baud : BitVec 24) : Word := placed opcode 28 ||| placed baud 0

/-- The word of a format R operation (R75). -/
def encodeR (opcode : BitVec 4) (idraw len : Byte) (p : Bool) (h : Byte) : Word :=
  placed opcode 28 ||| placed h 20 ||| placed (BitVec.ofBool p) 19 ||| placed len 8 ||| placed idraw 0

/-- The word of an operation (R71 to R76). -/
def encode : Instr → Word
  | .openIf baud => encodeU 0x1#4 baud
  | .closeIf => encodeO 0x2#4
  | .regMreq idraw len p h => encodeR 0x3#4 idraw len p h
  | .regSresp idraw len p h => encodeR 0x4#4 idraw len p h
  | .process => encodeO 0x5#4
  | .getState => encodeO 0x6#4
  | .getError => encodeO 0x7#4
  | .resetError => encodeO 0x8#4
  | .resetSm => encodeO 0x9#4
  | .getLastFrame => encodeO 0xA#4
  | .breakIn => encodeO 0xB#4
  | .rxByte b => encodeB 0xC#4 b
  | .tick d => encodeT 0xD#4 d

/-- The operation the decoder reads from `w`, whose bit 0 is the operation word's bit 0; bits from `nbits` up are 0.
The operation word is one 32-bit value without a byte order (R58), so it is given to the decoder as it is. -/
def decodeTableWord (nbits w : Nat) : Option Instr :=
  match decode (BitVec.ofNat 32 (w % 2 ^ nbits)) with
  | .instr i => some i
  | .refused _ => none

end Sys2Proof
end

