-- ==== Sys2Proof/Machine/State.lean ====
section
/-! DEFINITION. The engine's architectural state (R20 to R33), its reset values (R250), and the reasons a step can
stop. State is plain data. -/

namespace Sys2Proof.Machine

/-- The eight phases of the state machine (R78). -/
inductive Phase where
  | off | waitForBreak | waitForSync | waitForPid | receivingData | receivingEcho | waitForChecksum | done
deriving DecidableEq, Repr

/-- The error kinds (R79, R221). -/
inductive ErrorKind where
  | state | echo | timeout | chk | sync | pid | misc
deriving DecidableEq, Repr

/-- Frame kind (R80): a master request is received, a slave response is transmitted (R11). -/
inductive FrameKind where
  | mr
  | sr
deriving DecidableEq, Repr

/-- FC, the context of the frame in flight (R24). -/
structure FrameContext where
  /-- FC.pid: the protected ID as received. -/
  pid : Byte
  /-- FC.id: the unprotected ID. -/
  id : FrameId
  /-- FC.kind: latched from TABLE. -/
  kind : FrameKind
  /-- FC.len: declared data length latched from TABLE, legal 0..8. -/
  len : Nibble
  /-- FC.h: callback handle latched from TABLE. -/
  h : Byte
  /-- FC.buf[0..8]: data bytes, and for a slave response the checksum byte at index len. -/
  buf : Vector Byte 9
  /-- FC.idx: fill index (MR) or echo compare index (SR), legal 0..9. -/
  idx : Nibble
  /-- FC.t_last: NOW at the last break or consumed byte. -/
  tLast : Time
deriving DecidableEq, Repr

/-- FC with every field and every buffer byte zero: what clearFC() leaves (R10, R24). -/
def FrameContext.zero : FrameContext where
  pid := 0#8
  id := 0#6
  kind := .mr
  len := 0#4
  h := 0#8
  buf := Vector.replicate 9 0#8
  idx := 0#4
  tLast := 0#32

/-- A slot of the callback table (R27). -/
structure Slot where
  kind : FrameKind
  /-- TABLE[i].len: declared data length, legal 0..8. -/
  len : Nibble
  /-- TABLE[i].P: a callback is registered. -/
  present : Bool
  /-- TABLE[i].H: the callback's handle, 0 when P = 0. -/
  handle : Byte
deriving DecidableEq, Repr

/-- The reset value of a slot: kind MR, len 0, P 0, H 0 (R27). -/
def Slot.empty : Slot where
  kind := .mr
  len := 0#4
  present := false
  handle := 0#8

/-- LF, the snapshot of the last completed frame (R28). -/
structure LastFrame where
  kind : FrameKind
  id : FrameId
  len : Nibble
  /-- LF.data[0..7]: data bytes at 0..len-1, 0x00 above. -/
  data : Vector Byte 8
deriving DecidableEq, Repr

/-- LF with every field 0: its reset value (R28). -/
def LastFrame.zero : LastFrame where
  kind := .mr
  id := 0#6
  len := 0#4
  data := Vector.replicate 8 0#8

/-- A dispatch event (R25, R88). -/
inductive Event where
  /-- MR_CALL(h, id, n, data[0..n-1]). -/
  | mrCall (h : Byte) (id : FrameId) (n : Nibble) (data : List Byte)
  /-- SR_CALL(h, id, n). -/
  | srCall (h : Byte) (id : FrameId) (n : Nibble)
deriving DecidableEq, Repr

/-- A result of a GET operation (R87). -/
inductive ReadResult where
  /-- STATE8(s). -/
  | state8 (s : Byte)
  /-- ERROR8(e). -/
  | error8 (e : Byte)
  /-- FRAME(kind, id, len, data[0..7]). -/
  | frame (f : LastFrame)
deriving DecidableEq, Repr

/-- A mark of FAULTS (R33, R228). -/
inductive FaultMark where
  /-- ContractViolation(len): a registration with len > 8 (R172). -/
  | contractViolation (len : Byte)
deriving DecidableEq, Repr

/-- The engine's state: the elements of R20, and two fields of the model's own (`ops`, `rxOverflows`). -/
structure State where
  /-- STATE, the raw 8-bit register (R21); a value outside the eight codes is illegal (R121). -/
  state : Byte
  /-- ERR, the latched error mask (R23, R79). -/
  err : Byte
  /-- FC (R24). -/
  fc : FrameContext
  /-- BRK, the break-detected flag (R26). -/
  brk : Bool
  /-- TABLE[0..63] (R27). -/
  table : Vector Slot 64
  /-- LF (R28). -/
  lf : LastFrame
  /-- NOW (R29). -/
  now : Time
  /-- RXQ, oldest byte first (R30). -/
  rxq : List Byte
  /-- TXEN, the transmit-enable level (R31). -/
  txen : Bool
  /-- TX, every byte handed to the transport, in order (R31). -/
  tx : List Byte
  /-- EVENTS, in order (R25). -/
  events : List Event
  /-- READS, in order (R32). -/
  reads : List ReadResult
  /-- FAULTS: marks of the model, never cleared (R33, R228). -/
  faults : List FaultMark
  /-- REFUSED: the refused words, never cleared (R33, R229). -/
  refused : List Word
  /-- MODEL: the operation words the agents will issue, next first: the engine's "program" (R14). DESIGN CHOICE,
  assumption 1. -/
  ops : List Word
  /-- MODEL: how many bytes have arrived at a full receive queue; the index of the free value of that case. DESIGN
  CHOICE, assumption 2. -/
  rxOverflows : Nat
deriving DecidableEq, Repr

/-- The state right after reset (R250). `ops` and `rxOverflows` are the model's own (assumptions 1 and 2). -/
def State.reset : State where
  state := 0x01#8
  err := 0x00#8
  fc := FrameContext.zero
  brk := false
  table := Vector.replicate 64 Slot.empty
  lf := LastFrame.zero
  now := 0#32
  rxq := []
  txen := false
  tx := []
  events := []
  reads := []
  faults := []
  refused := []
  ops := []
  rxOverflows := 0

/-- Why the model stops. Both are raised only by PROCESS, only in a state outside the invariants of R35, where an index
of FC.buf would leave 0..8: R55 says every index is in range, and the source calls the overflow undefined (R172). Safe:
the model stops where the spec gives no effect (assumption 4). -/
inductive Fault where
  /-- PROCESS in ReceivingData or ReceivingEcho with FC.idx above 8. Safe. -/
  | bufferIndex (idx : Nibble)
  /-- PROCESS with a frame length above 8: in WaitForChecksum from FC, or in the slave-response step from TABLE. Safe. -/
  | frameLength (len : Nibble)
deriving DecidableEq, Repr

/-- Why an operation has no meaning in the model. A refused operation WORD is no stop: it marks REFUSED (R229,
assumption 7). -/
inductive Refusal where
  /-- An operation the model gives no meaning yet; raised by an arm of `exec` only. Safe. -/
  | notModelled (mnemonic : String)
deriving DecidableEq, Repr

end Sys2Proof.Machine
end

