-- ==== Sys2Proof/Machine/Flags.lean ====
section
/-! DEFINITION. The error mask ERR: the flags of this block (R79, R220). -/

namespace Sys2Proof.Machine

/-- The bit of an error kind in ERR (R79, R221). -/
def ErrorKind.mask : ErrorKind → Byte
  | .state => 0x01#8
  | .echo => 0x02#8
  | .timeout => 0x04#8
  | .chk => 0x08#8
  | .sync => 0x10#8
  | .pid => 0x20#8
  | .misc => 0x40#8

/-- `raise k`: OR the kind's bit into ERR; never stops the step (R9, R220). -/
def raise (k : ErrorKind) (s : State) : State := { s with err := s.err ||| k.mask }

/-- ERR <- 0x00, the only clearing of the mask (R183, R23). -/
def clearErr (s : State) : State := { s with err := 0x00#8 }

end Sys2Proof.Machine
end

