-- ==== Sys2Proof/Config.lean ====
section
/-! DEFINITION. The parameters of one engine (R6, R36, R251): fixed for its lifetime, never read or written as
registers, their values OPEN in the spec (D12, D13, D14, D19, D27). The machine runs with `Config.params`, a constant
with no body, so nothing can be proved that depends on what it is. -/

namespace Sys2Proof

/-- VERSION (R6, R104): LIN 1.x or LIN 2.x. -/
inductive Version where
  | v1
  | v2
deriving DecidableEq, Repr, Inhabited

/-- The parameters of one engine (R6). -/
structure Params where
  /-- VERSION: selects the checksum mode (R104). -/
  version : Version
  /-- T_TIMEOUT: the per-byte receive timeout in ticks of NOW, a natural number below 2^32 (R6, R122). -/
  tTimeout : Time
  /-- HAS_TXEN: whether a transmit-enable line is configured (R6, R31). -/
  hasTxen : Bool
  /-- RX_DEPTH: the depth of the receive buffer, `none` when unbounded (R6, R30). -/
  rxDepth : Option Nat
  /-- RESPOND: byte `k` of the `n` bytes that the callback with handle `h` produces for frame `id` (R6, R25, I8). -/
  respond : (h : Byte) → (id : FrameId) → (n k : Nat) → Byte
  /-- What a receive queue that is full becomes when a byte arrives: the transport's own behaviour, which the spec
  leaves out (R30, R203, I12). A free value: `m` counts the arrivals at a full queue before this one. DESIGN CHOICE,
  assumption 2, safe. -/
  rxOverflow : (m : Nat) → (queue : List Byte) → (b : Byte) → List Byte
deriving Inhabited

/-- The parameters of the engine the machine runs as. No body: a statement about the machine holds for every value.
DESIGN CHOICE, assumption 3. -/
opaque Config.params : Params

end Sys2Proof
end

