-- ==== Sys2Proof/Machine/Algorithms.lean ====
section
/-! DEFINITION. The protected-ID decoder (R100, R101) and the checksum accumulator (R103, R107). -/

namespace Sys2Proof.Machine

/-- P0, bit 6 of the protected ID (R82, R100). -/
def parity0 (x : Byte) : Bool := x.getLsbD 0 ^^ x.getLsbD 1 ^^ x.getLsbD 2 ^^ x.getLsbD 4

/-- P1, bit 7 of the protected ID, the inverted XOR (R82, R100). -/
def parity1 (x : Byte) : Bool := (x.getLsbD 1 ^^ x.getLsbD 3 ^^ x.getLsbD 4 ^^ x.getLsbD 5) ^^ true

/-- `calcPID(x)` (R100): bits 7:6 of `x` are cleared, then set to the parities of bits 5:0. -/
def calcPID (x : Byte) : Byte :=
  (x &&& 0x3F#8) ||| ((BitVec.ofBool (parity0 x)).setWidth 8 <<< 6) ||| ((BitVec.ofBool (parity1 x)).setWidth 8 <<< 7)

/-- `pidValid(b)` (R101). -/
def pidValid (b : Byte) : Bool := b == calcPID (b &&& 0x3F#8)

/-- The unprotected ID of a byte: `b & 0x3F` as a 6-bit value (R51, R127). -/
def idOf (b : Byte) : FrameId := b.setWidth 6

/-- Classical mode: always under V1, and under V2 for the diagnostic IDs 0x3C and 0x3D (R104). -/
def classical (v : Version) (id : FrameId) : Bool := v == .v1 || id == 0x3C#6 || id == 0x3D#6

/-- The accumulator's seed (R103, R104). -/
def checksumSeed (v : Version) (pid : Byte) (id : FrameId) : Nat := if classical v id then 0 else pid.toNat

/-- One addition with its carry fold: 255 is subtracted when the sum exceeds 255 (R103, R105). -/
def checksumAdd (acc : Nat) (b : Byte) : Nat := if acc + b.toNat > 255 then acc + b.toNat - 255 else acc + b.toNat

/-- The accumulator after the data bytes, in time order (R103). -/
def checksumAcc (v : Version) (pid : Byte) (id : FrameId) (data : List Byte) : Nat :=
  data.foldl checksumAdd (checksumSeed v pid id)

/-- `checksum(pid, id, n, data)`, with n the number of data bytes: the complement of the accumulator (R103). -/
def checksum (v : Version) (pid : Byte) (id : FrameId) (data : List Byte) : Byte :=
  ~~~(BitVec.ofNat 8 (checksumAcc v pid id data))

/-- `chkOK(b, pid, id, n, data)`, the receiver's check (R107). -/
def chkOK (v : Version) (b pid : Byte) (id : FrameId) (data : List Byte) : Bool := b == checksum v pid id data

end Sys2Proof.Machine
end

