-- ==== Sys2Proof/Machine/Codes.lean ====
section
/-! DEFINITION. The codes of the engine's registers: the one-hot STATE codes (R78), the frame kind bit (R80) and the
packed form of a FRAME result (R87). -/

namespace Sys2Proof.Machine

/-- The one-hot code of a phase (R78). -/
def Phase.code : Phase → Byte
  | .off => 0x01#8
  | .waitForBreak => 0x02#8
  | .waitForSync => 0x04#8
  | .waitForPid => 0x08#8
  | .receivingData => 0x10#8
  | .receivingEcho => 0x20#8
  | .waitForChecksum => 0x40#8
  | .done => 0x80#8

/-- The eight phases, in the order of the source's state table (R78). -/
def allPhases : List Phase :=
  [.off, .waitForBreak, .waitForSync, .waitForPid, .receivingData, .receivingEcho, .waitForChecksum, .done]

/-- The phase a STATE value stands for; none for a value outside the enumeration (R78, R121). -/
def Phase.ofCode (c : Byte) : Option Phase := allPhases.find? (fun ph => ph.code == c)

/-- `legal(s)` (R10): the value is one of the eight codes. -/
def legal (c : Byte) : Bool := (Phase.ofCode c).isSome

/-- The phases with a frame in flight, neither Off, WaitForBreak nor Done: the timeout is armed (R122, R231) and a
consumed byte stamps FC.t_last (R124). -/
def Phase.inFrame : Phase → Bool
  | .off | .waitForBreak | .done => false
  | .waitForSync | .waitForPid | .receivingData | .receivingEcho | .waitForChecksum => true

/-- MR = 0, SR = 1 (R80). -/
def FrameKind.code : FrameKind → BitVec 1
  | .mr => 0#1
  | .sr => 1#1

/-- The ten-byte form of a FRAME result: `{kind, 0, id}`, len, data[0..7] (R87). -/
def LastFrame.packed (f : LastFrame) : List Byte :=
  [f.kind.code ++ 0#1 ++ f.id, f.len.setWidth 8] ++ f.data.toList

end Sys2Proof.Machine
end

