-- ==== Sys2Proof/Machine/Operands.lean ====
section
/-! DEFINITION. The operand forms: format R's slot index, length and handle (R89), format T's delta (R73), and the
indexed stores FC.buf and LF.data (R50, R55). -/

namespace Sys2Proof.Machine

/-- The slot a registration writes: `idraw & 0x3F` (R51, R89). -/
def slotIndex (idraw : Byte) : FrameId := idOf idraw

/-- The length contract: numData is 0..8, compared unsigned (R89, R172). -/
def lengthOk (len : Byte) : Bool := len.toNat ≤ 8

/-- The handle stored: H when P = 1, 0 when P = 0 (R89, R173). -/
def storedHandle (p : Bool) (h : Byte) : Byte := if p then h else 0#8

/-- The slot a registration writes, all four fields (R170, R171). -/
def slotOf (kind : FrameKind) (len : Byte) (p : Bool) (h : Byte) : Slot where
  kind := kind
  len := len.setWidth 4
  present := p
  handle := storedHandle p h

/-- The delta of TICK, zero-extended to 32 bits (R73, R89). -/
def tickDelta (d : BitVec 28) : Time := d.setWidth 32

/-- Byte `k` of FC.buf, for k in 0..8 (R50, R55). -/
def bufAt (buf : Vector Byte 9) (k : Nat) : Byte := buf.toList.getD k 0#8

/-- FC.buf with byte `k` written, for k in 0..8 (R55). -/
def bufSet (buf : Vector Byte 9) (k : Nat) (b : Byte) : Vector Byte 9 := buf.setIfInBounds k b

/-- FC.buf with `xs` written from index 0 and the bytes above them kept (R55, R131). -/
def bufFill (buf : Vector Byte 9) (xs : List Byte) : Vector Byte 9 :=
  let at' (k : Nat) : Byte := if k < xs.length then xs.getD k 0#8 else bufAt buf k
  #v[at' 0, at' 1, at' 2, at' 3, at' 4, at' 5, at' 6, at' 7, at' 8]

/-- The data bytes FC.buf[0..len-1], in time order (R56). -/
def dataOf (fc : FrameContext) : List Byte := fc.buf.toList.take fc.len.toNat

/-- LF.data from the data bytes: 0x00 at the positions above them (R28, D35). -/
def padData (data : List Byte) : Vector Byte 8 :=
  #v[data.getD 0 0#8, data.getD 1 0#8, data.getD 2 0#8, data.getD 3 0#8,
     data.getD 4 0#8, data.getD 5 0#8, data.getD 6 0#8, data.getD 7 0#8]

/-- The `n` bytes of `RESPOND(h, id, n)`, byte 0 first (R6, R25, R56). -/
def respondBytes (P : Params) (h : Byte) (id : FrameId) (n : Nat) : List Byte :=
  (List.range n).map (P.respond h id n)

/-- The elapsed time since the frame's last break or byte, modulo 2^32 (R122). -/
def elapsed (s : State) : Time := s.now - s.fc.tLast

/-- The timeout's comparison, strict (R122). -/
def timedOut (P : Params) (s : State) : Bool := P.tTimeout < elapsed s

end Sys2Proof.Machine
end

