-- ==== Sys2Proof/Machine/Ops.lean ====
section
/-! DEFINITION. The named operations over the engine's state (R9, R10), entering an error and recovering from it
(R222, R223), and issuing and fetching operation words (R14). -/

namespace Sys2Proof.Machine

/-! ### One element at a time -/

/-- `goto S` (R9). -/
def goto (ph : Phase) (s : State) : State := { s with state := ph.code }

/-- `FC <- fc`. -/
def setFC (fc : FrameContext) (s : State) : State := { s with fc := fc }

/-- `clearFC()` (R10, R24). -/
def clearFC (s : State) : State := setFC FrameContext.zero s

/-- `FC.t_last <- NOW` (R123, R124). -/
def stamp (s : State) : State := { s with fc := { s.fc with tLast := s.now } }

/-- `txOff()` (R10). -/
def txOff (s : State) : State := { s with txen := false }

/-- `if HAS_TXEN: TXEN <- 1` (R131). -/
def txOn (P : Params) (s : State) : State := if P.hasTxen then { s with txen := true } else s

/-- `BRK <- v` (R26). -/
def setBrk (v : Bool) (s : State) : State := { s with brk := v }

/-- `RXQ <- q`: popping the head, flushing, appending (R9, R30). -/
def setRxq (q : List Byte) (s : State) : State := { s with rxq := q }

/-- `TX.append(xs)` (R9, R31). -/
def sendBytes (xs : List Byte) (s : State) : State := { s with tx := s.tx ++ xs }

/-- `EVENTS.append(e)` (R9, R25). -/
def emit (e : Event) (s : State) : State := { s with events := s.events ++ [e] }

/-- `READS.append(r)` (R9, R32). -/
def report (r : ReadResult) (s : State) : State := { s with reads := s.reads ++ [r] }

/-- `LF <- f`, whole (R28, R54). -/
def setLF (f : LastFrame) (s : State) : State := { s with lf := f }

/-- `TABLE[i]` (R9, R27). -/
def slotAt (s : State) (i : FrameId) : Slot := s.table[i.toNat]'i.isLt

/-- `TABLE[i] <- e`, all four fields (R9, R27). -/
def setSlot (i : FrameId) (e : Slot) (s : State) : State := { s with table := s.table.set i.toNat e i.isLt }

/-- `NOW <- (NOW + d) mod 2^32` (R204). -/
def advance (d : Time) (s : State) : State := { s with now := s.now + d }

/-- A mark of FAULTS: nothing else changes and no later step clears it (R33, R228). -/
def markFault (m : FaultMark) (s : State) : State := { s with faults := s.faults ++ [m] }

/-- A mark of REFUSED with the word: nothing else changes (R33, R229). -/
def markRefused (w : Word) (s : State) : State := { s with refused := s.refused ++ [w] }

/-! ### Receiving a byte into the queue -/

/-- Whether RXQ has room for one more byte under RX_DEPTH (R30). -/
def rxHasRoom (P : Params) (s : State) : Bool :=
  match P.rxDepth with
  | none => true
  | some depth => s.rxq.length < depth

/-- The queue after a byte arrives at a full one: the transport's behaviour, a free value of at most RX_DEPTH bytes
(R203, I12). DESIGN CHOICE, assumption 2. -/
def rxOverflowed (P : Params) (b : Byte) (s : State) : List Byte :=
  match P.rxDepth with
  | none => s.rxq ++ [b]
  | some depth => (P.rxOverflow s.rxOverflows s.rxq b).take depth

/-- A byte arrives from the bus: `RXQ <- RXQ ++ [b]` (R203), or the transport's behaviour at a full queue. -/
def receive (P : Params) (b : Byte) (s : State) : State :=
  if rxHasRoom P s then setRxq (s.rxq ++ [b]) s
  else { s with rxq := rxOverflowed P b s, rxOverflows := s.rxOverflows + 1 }

/-! ### Leaving the frame in flight -/

/-- The end of a frame: clearFC, txOff and the next phase, shared by OPEN, CLOSE, RESET_SM, the error entry and the
end of a successful frame (R24, R141). -/
def endFrame (ph : Phase) (s : State) : State := goto ph (txOff (clearFC s))

/-- Error entry, the block's exception entry (R222): the bit is raised, the frame in flight discarded, TXEN dropped and
STATE set to Done. Nothing is saved, no control leaves the engine, nothing is dispatched (R220). TXEN is written here
for every kind, as R222 step 3 says (assumption 5). -/
def errorEntry (k : ErrorKind) (s : State) : State := endFrame .done (raise k s)

/-- Recovery by a break, the return from an error and the start of every frame (R123, R223). -/
def breakStart (s : State) : State := goto .waitForSync (txOff (stamp (clearFC (setBrk false s))))

/-! ### Operation words -/

/-- The agents issue `w` as the next operation (R14). -/
def issue (w : Word) (s : State) : State := { s with ops := w :: s.ops }

/-- The next operation word and the state without it; none when nothing is issued (R14, R267). -/
def fetch (s : State) : Option (Word × State) :=
  match s.ops with
  | [] => none
  | w :: rest => some (w, { s with ops := rest })

/-- A step at which no agent issues an operation: the engine acts only when one does (R2). DEDUCED, assumption 6. -/
def idle (s : State) : State := s

end Sys2Proof.Machine
end

