-- ==== Sys2Proof/Machine/Cycle.lean ====
section
/-! DEFINITION. One atomic step over any execution of a decoded operation (R52, R77, R229). -/

namespace Sys2Proof.Machine

/-- The next operation word is fetched, decoded and executed by `ex` as one atomic step (R52); a word the decoder
refuses marks REFUSED with the word and changes nothing else (R77, R229, assumption 7); with nothing issued the engine
stays as it is (R2, assumption 6). -/
def cycle (ex : Instr → State → Host.Outcome State Fault Refusal) (s : State) : Host.Outcome State Fault Refusal :=
  match fetch s with
  | none => .next (idle s)
  | some (w, s') =>
    match decode w with
    | .instr i => ex i s'
    | .refused _ => .next (markRefused w s')

/-- The word that a table word of `nbits` bits and value `w` is: its bits from `nbits` up are zero. -/
def tableWord (nbits w : Nat) : Word := BitVec.ofNat 32 (w % 2 ^ nbits)

end Sys2Proof.Machine
end

