-- ==== Sys2Proof/Machine/Accessors.lean ====
section
/-! DEFINITION. Frame retrieval, error and state accessors (R180 to R186). Each is legal in every STATE. -/

namespace Sys2Proof.Machine

/-- GET_LAST_FRAME (R180). -/
def execGetLastFrame (s : State) : Host.Outcome State Fault Refusal := .next (report (.frame s.lf) s)

/-- GET_STATE (R181): the raw register, an illegal value included. -/
def execGetState (s : State) : Host.Outcome State Fault Refusal := .next (report (.state8 s.state) s)

/-- GET_ERROR (R182): the mask is not cleared. -/
def execGetError (s : State) : Host.Outcome State Fault Refusal := .next (report (.error8 s.err) s)

/-- RESET_ERROR (R183). -/
def execResetError (s : State) : Host.Outcome State Fault Refusal := .next (clearErr s)

/-- RESET_SM (R184): in every STATE, Off and an illegal value included (C2). -/
def execResetSm (s : State) : Host.Outcome State Fault Refusal := .next (endFrame .waitForBreak s)

end Sys2Proof.Machine
end

