-- ==== Sys2Proof/Machine/Lifecycle.lean ====
section
/-! DEFINITION. OPEN, CLOSE (R200, R201), the transport's BREAK_IN and RX_BYTE (R202, R203) and the environment's TICK
(R204). -/

namespace Sys2Proof.Machine

/-- OPEN (R200). The baud rate is passed to the transport and no copy is kept, so it is in no element of R20
(DEDUCED, assumption 9). -/
def execOpenIf (_baud : BitVec 24) (s : State) : Host.Outcome State Fault Refusal :=
  .next (endFrame .waitForBreak (setRxq [] (setBrk false s)))

/-- CLOSE (R201). -/
def execCloseIf (s : State) : Host.Outcome State Fault Refusal := .next (endFrame .off s)

/-- BREAK_IN (R202). -/
def execBreakIn (s : State) : Host.Outcome State Fault Refusal := .next (setBrk true s)

/-- RX_BYTE (R203). -/
def execRxByte (b : Byte) (s : State) : Host.Outcome State Fault Refusal := .next (receive Config.params b s)

/-- TICK (R204). It never raises the timeout itself. -/
def execTick (d : BitVec 28) (s : State) : Host.Outcome State Fault Refusal := .next (advance (tickDelta d) s)

end Sys2Proof.Machine
end

