-- ==== Sys2Proof/Machine/Process.lean ====
section
/-! DEFINITION. PROCESS and the frame state machine (R120 to R143), one definition per rule. Every definition takes the
parameters; the instruction's meaning gives it the machine's. -/

namespace Sys2Proof.Machine

/-- Illegal-state recovery (R121): BRK and RXQ are unchanged. -/
def illegalStateRecovery (s : State) : State := errorEntry .state s

/-- The timeout abort (R122): the queue is flushed, a pending break stays. -/
def timeoutAbort (s : State) : State := errorEntry .timeout (setRxq [] s)

/-- A byte in WaitForSync: the SYNC check (R126, R85). -/
def syncByte (b : Byte) (s : State) : State :=
  if b = 0x55#8 then goto .waitForPid s else errorEntry .sync s

/-- The frame-context latch (R130). FC.t_last is already stamped (R124); FC.buf is not written. -/
def latch (b : Byte) (id : FrameId) (e : Slot) (s : State) : State :=
  setFC { s.fc with pid := b, id := id, kind := e.kind, len := e.len, h := e.handle, idx := 0#4 } s

/-- Slave-response dispatch and transmission, in the latched frame (R131): the event, the data with the checksum after
them into FC.buf, TXEN, the bytes to TX, and the echo phase. -/
def sendResponse (P : Params) (s : State) : State :=
  let fc := s.fc
  let n := fc.len.toNat
  let data := respondBytes P fc.h fc.id n
  let buf := bufFill fc.buf (data ++ [checksum P.version fc.pid fc.id data])
  goto .receivingEcho
    (sendBytes (buf.toList.take (n + 1))
      (txOn P (setFC { fc with buf := buf, idx := 0#4 } (emit (.srCall fc.h fc.id fc.len) s))))

/-- Master-request start, in the latched frame (R132). -/
def startMasterRequest (s : State) : State :=
  if s.fc.len = 0#4 then goto .waitForChecksum s else goto .receivingData s

/-- A byte in WaitForPid: the protected-ID decoder and the dispatch lookup (R127 to R132). A slave response of more than
8 bytes would leave FC.buf (R55): the model stops (assumption 4). -/
def pidByte (P : Params) (b : Byte) (s : State) : Host.Outcome State Fault Refusal :=
  if pidValid b then
    let e := slotAt s (idOf b)
    if e.present then
      let s1 := latch b (idOf b) e s
      match e.kind with
      | .mr => .next (startMasterRequest s1)
      | .sr => if e.len.toNat ≤ 8 then .next (sendResponse P s1) else .fault (.frameLength e.len)
    else .next (goto .waitForBreak (clearFC s))
  else .next (errorEntry .pid s)

/-- A byte in ReceivingData: store the payload (R133). An index above 8 is outside FC.buf (R55, assumption 4). -/
def dataByte (b : Byte) (s : State) : Host.Outcome State Fault Refusal :=
  if s.fc.idx.toNat ≤ 8 then
    let fc := { s.fc with buf := bufSet s.fc.buf s.fc.idx.toNat b, idx := s.fc.idx + 1#4 }
    .next (if fc.idx = fc.len then goto .waitForChecksum (setFC fc s) else setFC fc s)
  else .fault (.bufferIndex s.fc.idx)

/-- The snapshot of the frame in flight, of the given kind (R135, R140). -/
def snapshotOf (kind : FrameKind) (fc : FrameContext) : LastFrame where
  kind := kind
  id := fc.id
  len := fc.len
  data := padData (dataOf fc)

/-- Master-request success: dispatch and snapshot (R135). -/
def completeMasterRequest (s : State) : State :=
  goto .done
    (clearFC (setLF (snapshotOf .mr s.fc) (emit (.mrCall s.fc.h s.fc.id s.fc.len (dataOf s.fc)) s)))

/-- A byte in WaitForChecksum: the frame-valid check of a master request (R134 to R136). A length above 8 is outside the
data buffer (R55, assumption 4). -/
def checksumByte (P : Params) (b : Byte) (s : State) : Host.Outcome State Fault Refusal :=
  if s.fc.len.toNat ≤ 8 then
    .next (if chkOK P.version b s.fc.pid s.fc.id (dataOf s.fc) then completeMasterRequest s else errorEntry .chk s)
  else .fault (.frameLength s.fc.len)

/-- Slave-response success (R140). -/
def completeSlaveResponse (s : State) : State := endFrame .done (setLF (snapshotOf .sr s.fc) s)

/-- A byte in ReceivingEcho: the echo check (R137 to R140). An index above 8 is outside FC.buf (R55, assumption 4). -/
def echoByte (b : Byte) (s : State) : Host.Outcome State Fault Refusal :=
  if s.fc.idx.toNat ≤ 8 then
    if b = bufAt s.fc.buf s.fc.idx.toNat then
      let s1 := setFC { s.fc with idx := s.fc.idx + 1#4 } s
      .next (if s.fc.idx.toNat + 1 = s.fc.len.toNat + 1 then completeSlaveResponse s1 else s1)
    else .next (errorEntry .echo s)
  else .fault (.bufferIndex s.fc.idx)

/-- The rule of a consumed byte by phase (R124). In WaitForBreak and Done the byte is dropped (R125, R142); in Off no
byte is consumed (R120). -/
def dispatchByte (P : Params) (ph : Phase) (b : Byte) (s : State) : Host.Outcome State Fault Refusal :=
  match ph with
  | .off => .next s
  | .waitForBreak => .next s
  | .waitForSync => .next (syncByte b s)
  | .waitForPid => pidByte P b s
  | .receivingData => dataByte b s
  | .receivingEcho => echoByte b s
  | .waitForChecksum => checksumByte P b s
  | .done => .next s

/-- The timestamp of a consumed byte, kept only while a frame is in flight (R124). -/
def stampInFrame (ph : Phase) (s : State) : State := if ph.inFrame then stamp s else s

/-- PROCESS (R120): at most one action, in the order illegal STATE, Off, timeout, break, one byte (R225). -/
def processStep (P : Params) (s : State) : Host.Outcome State Fault Refusal :=
  match Phase.ofCode s.state with
  | none => .next (illegalStateRecovery s)
  | some ph =>
    if ph = .off then .next s
    else if ph.inFrame && timedOut P s then .next (timeoutAbort s)
    else if s.brk then .next (breakStart s)
    else
      match s.rxq with
      | [] => .next s
      | b :: rest => dispatchByte P ph b (stampInFrame ph (setRxq rest s))

/-- PROCESS with the machine's parameters (R120). -/
def execProcess (s : State) : Host.Outcome State Fault Refusal := processStep Config.params s

end Sys2Proof.Machine
end

