-- ==== Sys2Proof/Machine/Registration.lean ====
section
/-! DEFINITION. Callback registration: REG_MREQ and REG_SRESP (R170 to R174). -/

namespace Sys2Proof.Machine

/-- A registration: the contract fault when len > 8 (R172), otherwise the slot is overwritten whole (R170, R171). A
length above 8 marks FAULTS in a next state, as R172 and R228 describe it: it is no stop of the model
(assumption 7). -/
def register (kind : FrameKind) (idraw len : Byte) (p : Bool) (h : Byte) (s : State) : State :=
  if lengthOk len then setSlot (slotIndex idraw) (slotOf kind len p h) s
  else markFault (.contractViolation len) s

/-- REG_MREQ (R170). -/
def execRegMreq (idraw len : Byte) (p : Bool) (h : Byte) (s : State) : Host.Outcome State Fault Refusal :=
  .next (register .mr idraw len p h s)

/-- REG_SRESP (R171). -/
def execRegSresp (idraw len : Byte) (p : Bool) (h : Byte) (s : State) : Host.Outcome State Fault Refusal :=
  .next (register .sr idraw len p h s)

end Sys2Proof.Machine
end

