-- ==== Sys2Proof/Machine/Dispatch.lean ====
section
/-! DEFINITION. One arm per operation of the opcode map (R76). -/

namespace Sys2Proof.Machine

def exec (i : Instr) (s : State) : Host.Outcome State Fault Refusal :=
  match i with
  | .openIf baud => Sys2Proof.Machine.execOpenIf baud s
  | .closeIf => Sys2Proof.Machine.execCloseIf s
  | .regMreq idraw len p h => Sys2Proof.Machine.execRegMreq idraw len p h s
  | .regSresp idraw len p h => Sys2Proof.Machine.execRegSresp idraw len p h s
  | .process => Sys2Proof.Machine.execProcess s
  | .getState => Sys2Proof.Machine.execGetState s
  | .getError => Sys2Proof.Machine.execGetError s
  | .resetError => Sys2Proof.Machine.execResetError s
  | .resetSm => Sys2Proof.Machine.execResetSm s
  | .getLastFrame => Sys2Proof.Machine.execGetLastFrame s
  | .breakIn => Sys2Proof.Machine.execBreakIn s
  | .rxByte b => Sys2Proof.Machine.execRxByte b s
  | .tick d => Sys2Proof.Machine.execTick d s

end Sys2Proof.Machine
end

