-- ==== Sys2Proof/Machine/Step.lean ====
section
/-! DEFINITION. One step of the machine, and issuing one operation word as its next operation. -/

namespace Sys2Proof.Machine

/-- One atomic step (R52): `cycle` with the meanings of `exec`. -/
def step (s : State) : Host.Outcome State Fault Refusal := cycle exec s

/-- `s` with the operation word of value `w`, its bits from `nbits` up zero, issued as the next operation (assumption 1
says how operations come to run from `State.reset`). -/
def State.withFetchWord (s : State) (nbits w : Nat) : State := issue (tableWord nbits w) s

end Sys2Proof.Machine
end

