-- ==== Sys2Proof/Machine/Assembler.lean ====
section
/-! DEFINITION. The spec's assembler: one line per operation with its word (R90), and the pseudo-instructions with
their expansions (R91). The engine itself sees words only. -/

namespace Sys2Proof.Machine

/-- A line of R90 with its operands as numbers; the handle `none` is the operand `null`. -/
inductive AsmLine where
  | openLine (baud : Nat)
  | close
  | regMreq (id len : Nat) (h : Option Nat)
  | regSresp (id len : Nat) (h : Option Nat)
  | process
  | getState
  | getError
  | resetError
  | resetSm
  | getFrame
  | brk
  | rx (b : Nat)
  | tick (d : Nat)
deriving DecidableEq, Repr

/-- The word of a registration line: `base | H<<20 | LEN<<8 | ID` with bit 19 set, or without H and bit 19 for `null`
(R90). Each operand fits its field of format R (R75). -/
def assembleReg (base : Word) (id len : Nat) (h : Option Nat) : Option Word :=
  if id < 256 ∧ len < 256 then
    match h with
    | none => some (base ||| BitVec.ofNat 32 len <<< 8 ||| BitVec.ofNat 32 id)
    | some h =>
      if h < 256 then
        some (base ||| 0x00080000#32 ||| BitVec.ofNat 32 h <<< 20 ||| BitVec.ofNat 32 len <<< 8 ||| BitVec.ofNat 32 id)
      else none
  else none

/-- The word of a line; none when an operand does not fit its field (R90). -/
def assemble : AsmLine → Option Word
  | .openLine baud => if baud < 2 ^ 24 then some (0x10000000#32 ||| BitVec.ofNat 32 baud) else none
  | .close => some 0x20000000#32
  | .regMreq id len h => assembleReg 0x30000000#32 id len h
  | .regSresp id len h => assembleReg 0x40000000#32 id len h
  | .process => some 0x50000000#32
  | .getState => some 0x60000000#32
  | .getError => some 0x70000000#32
  | .resetError => some 0x80000000#32
  | .resetSm => some 0x90000000#32
  | .getFrame => some 0xA0000000#32
  | .brk => some 0xB0000000#32
  | .rx b => if b < 256 then some (0xC0000000#32 ||| BitVec.ofNat 32 b) else none
  | .tick d => if d < 2 ^ 28 then some (0xD0000000#32 ||| BitVec.ofNat 32 d) else none

/-- The operand text of a handle: a number or `null` (R90). -/
def handleText : Option Nat → String
  | none => "null"
  | some h => toString h

/-- The text of a line, its numbers in decimal (R90). -/
def AsmLine.text : AsmLine → String
  | .openLine baud => "open " ++ toString baud
  | .close => "close"
  | .regMreq id len h => "reg.mreq " ++ toString id ++ ", " ++ toString len ++ ", " ++ handleText h
  | .regSresp id len h => "reg.sresp " ++ toString id ++ ", " ++ toString len ++ ", " ++ handleText h
  | .process => "process"
  | .getState => "get.state"
  | .getError => "get.error"
  | .resetError => "reset.error"
  | .resetSm => "reset.sm"
  | .getFrame => "get.frame"
  | .brk => "break"
  | .rx b => "rx " ++ toString b
  | .tick d => "tick " ++ toString d

/-- The agent mark that may stand before a line; it does not change the word (R90). -/
def agentMark : Agent → String
  | .consumer => "[c]"
  | .transport => "[t]"
  | .environment => "[e]"

/-- The pseudo-instructions but `echo.all` (R91). -/
inductive Pseudo where
  | brkp
  | rxp (b : Byte)
  | linHdr (id : Byte)
  | linData (bs : List Byte)
  | linMreq (id : Byte) (data : List Byte)
deriving DecidableEq, Repr

/-- `brkp` (R91). -/
def brkp : List Instr := [.breakIn, .process]

/-- `rxp B` (R91). -/
def rxp (b : Byte) : List Instr := [.rxByte b, .process]

/-- `lin.hdr ID` (R91). -/
def linHdr (id : Byte) : List Instr := brkp ++ rxp 0x55#8 ++ rxp (calcPID id)

/-- `lin.data B0, ..., Bk` (R91). -/
def linData (bs : List Byte) : List Instr := bs.flatMap rxp

/-- `lin.mreq ID, B0..Bn-1`, with the checksum of the engine's VERSION (R91). -/
def linMreq (v : Version) (id : Byte) (data : List Byte) : List Instr :=
  linHdr id ++ linData data ++ rxp (checksum v (calcPID id) (idOf id) data)

/-- The expansion of a pseudo-instruction (R91). -/
def Pseudo.expand (v : Version) : Pseudo → List Instr
  | .brkp => Sys2Proof.Machine.brkp
  | .rxp b => Sys2Proof.Machine.rxp b
  | .linHdr id => Sys2Proof.Machine.linHdr id
  | .linData bs => Sys2Proof.Machine.linData bs
  | .linMreq id data => Sys2Proof.Machine.linMreq v id data

/-- The length of the last slave response dispatched; none when there was none. -/
def lastResponseLen (s : State) : Option Nibble :=
  s.events.reverse.findSome? (fun e =>
    match e with
    | .srCall _ _ n => some n
    | .mrCall _ _ _ _ => none)

/-- The n+1 bytes that the last slave-response step appended to TX (R91, R131). -/
def lastResponse (s : State) : List Byte :=
  match lastResponseLen s with
  | none => []
  | some n => s.tx.drop (s.tx.length - (n.toNat + 1))

/-- `echo.all`: a bus that returns every transmitted byte unchanged (R91). -/
def echoAll (s : State) : List Instr := (lastResponse s).flatMap rxp

end Sys2Proof.Machine
end

