-- ==== Sys2Proof/Machine/Instances.lean ====
section
/-! DEFINITION. Several engines side by side, each with parameters and a state of its own (R63, R233). -/

namespace Sys2Proof.Machine

/-- One engine: its parameters, bound at reset (R251), and its state. -/
structure Engine where
  params : Params
  state : State

/-- An operation under given parameters: only PROCESS (R120) and RX_BYTE (R203) read any. -/
def execOn (P : Params) (i : Instr) (s : State) : Host.Outcome State Fault Refusal :=
  match i with
  | .process => processStep P s
  | .rxByte b => .next (receive P b s)
  | .openIf baud => exec (.openIf baud) s
  | .closeIf => exec .closeIf s
  | .regMreq idraw len p h => exec (.regMreq idraw len p h) s
  | .regSresp idraw len p h => exec (.regSresp idraw len p h) s
  | .getState => exec .getState s
  | .getError => exec .getError s
  | .resetError => exec .resetError s
  | .resetSm => exec .resetSm s
  | .getLastFrame => exec .getLastFrame s
  | .breakIn => exec .breakIn s
  | .tick d => exec (.tick d) s

/-- One atomic step of one engine under its own parameters (R233). -/
def stepOn (P : Params) (s : State) : Host.Outcome State Fault Refusal := cycle (execOn P) s

/-- `k` steps of one engine under its own parameters, while it goes on. -/
def runOn (P : Params) : Nat → State → Host.Outcome State Fault Refusal
  | 0, s => .next s
  | k + 1, s =>
    match stepOn P s with
    | .next t => runOn P k t
    | .fault r => .fault r
    | .refused r => .refused r

/-- One step of engine `k` of a system; with no engine `k` nothing happens (R63). -/
def systemStep (k : Nat) (sys : List Engine) : Host.Outcome (List Engine) Fault Refusal :=
  match sys[k]? with
  | none => .next sys
  | some e =>
    match stepOn e.params e.state with
    | .next t => .next (sys.set k { e with state := t })
    | .fault r => .fault r
    | .refused r => .refused r

end Sys2Proof.Machine
end

