-- ==== Sys2Proof/Safety.lean ====
section
/-! DEFINITION. What a claim about a run speaks of: the observations (R13, R267), final states (R33, R228, R229), the
invariants of R35 and the states reachable from reset. -/

namespace Sys2Proof.Machine

/-- The observations of a run after its last operation (R13, R267). -/
structure Observation where
  tx : List Byte
  txen : Bool
  events : List Event
  reads : List ReadResult
  faults : List FaultMark
  refused : List Word
deriving DecidableEq, Repr

/-- What is observed of a state (R13): the internal registers only through READS. -/
def observe (s : State) : Observation where
  tx := s.tx
  txen := s.txen
  events := s.events
  reads := s.reads
  faults := s.faults
  refused := s.refused

/-- The TXEN level over time: after each of the next `k` steps, while the machine goes on (R13). -/
def txenTrace : Nat → State → List Bool
  | 0, _ => []
  | k + 1, s =>
    match step s with
    | .next t => t.txen :: txenTrace k t
    | .fault _ => []
    | .refused _ => []

/-- A state with no mark; only such a state can be final (R33, R228, R229). -/
def unmarked (s : State) : Bool := s.faults.isEmpty && s.refused.isEmpty

/-- A final state of a claim: every operation issued has run, and no mark stands (R33, R267). -/
def final (s : State) : Bool := s.ops.isEmpty && unmarked s

/-- STATE is the code of the phase. -/
def inPhase (ph : Phase) (s : State) : Prop := s.state = ph.code

/-- STATE is ReceivingData, WaitForChecksum or ReceivingEcho: FC holds a latched frame (R35 (b)). -/
def hasFrame (s : State) : Prop :=
  inPhase .receivingData s ∨ inPhase .waitForChecksum s ∨ inPhase .receivingEcho s

/-- STATE is Off, WaitForBreak or Done: no frame in flight (R35 (h)). -/
def noFrame (s : State) : Prop := inPhase .off s ∨ inPhase .waitForBreak s ∨ inPhase .done s

/-- The elapsed time of R122 as a natural number. -/
def elapsedTicks (s : State) : Nat := (s.now.toNat + 2 ^ 32 - s.fc.tLast.toNat) % 2 ^ 32

/-- PROCESS reaches the queued byte `b` in the phase: no frame in flight has timed out, no break is pending, and `b` is
the oldest byte of RXQ (R120, R124). -/
structure BytePending (P : Params) (ph : Phase) (b : Byte) (rest : List Byte) (s : State) : Prop where
  phase : inPhase ph s
  noTimeout : ph.inFrame = true → elapsedTicks s ≤ P.tTimeout.toNat
  noBreak : s.brk = false
  queue : s.rxq = b :: rest

/-- The invariants of R35, (a) to (h) in its order, and the bound on FC.len that R55 draws from (a). -/
structure EngineInv (P : Params) (s : State) : Prop where
  tableLen : ∀ i : FrameId, (slotAt s i).len.toNat ≤ 8
  pidAndId : hasFrame s → s.fc.id = idOf s.fc.pid ∧ s.fc.pid = calcPID (s.fc.id.setWidth 8)
  stateLegal : legal s.state = true
  dataIdx : inPhase .receivingData s → s.fc.idx.toNat < s.fc.len.toNat
  checksumIdx : inPhase .waitForChecksum s → s.fc.idx = s.fc.len
  echoIdx : inPhase .receivingEcho s → s.fc.idx.toNat ≤ s.fc.len.toNat
  txenEcho : s.txen = true → P.hasTxen = true ∧ inPhase .receivingEcho s
  idleContext : noFrame s → s.fc = FrameContext.zero
  frameLen : s.fc.len.toNat ≤ 8

/-- TXEN is 1 exactly while STATE is ReceivingEcho when a line is configured, and 0 always when none is (R31). -/
def TxenInv (P : Params) (s : State) : Prop := s.txen = true ↔ (P.hasTxen = true ∧ inPhase .receivingEcho s)

/-- The states reachable from reset when the agents issue any words in any order (R35, R52). -/
inductive Reachable : State → Prop where
  | reset : Reachable State.reset
  | issue (w : Word) (s : State) : Reachable s → Reachable (issue w s)
  | step (s t : State) : Reachable s → step s = .next t → Reachable t

end Sys2Proof.Machine
end

