-- ==== Sys2Proof/Certificates/Slice0/Obligations.lean ====
section
/-! DEFINITION. The statements for the provers. Each docstring names the rules of the spec it formalises and any clause
that is the model's own choice. -/

open Sys2Proof Sys2Proof.Machine

/-! ### Encoding -/

/-- The spec's own words of 95 section 2.1, one or more for every operation and every format (R71 to R76, R89). -/
def Obligations.DecodeSpecWords : Prop :=
  decode 0x10004B00#32 = .instr (.openIf 19200#24) ∧
  decode 0x20000000#32 = .instr .closeIf ∧
  decode 0x3098022A#32 = .instr (.regMreq 0x2A#8 2#8 true 0x09#8) ∧
  decode 0x3000022A#32 = .instr (.regMreq 0x2A#8 2#8 false 0x00#8) ∧
  decode 0x30F0032A#32 = .instr (.regMreq 0x2A#8 3#8 false 0x00#8) ∧
  decode 0x40780410#32 = .instr (.regSresp 0x10#8 4#8 true 0x07#8) ∧
  decode 0x4FF8082A#32 = .instr (.regSresp 0x2A#8 8#8 true 0xFF#8) ∧
  decode 0x50000000#32 = .instr .process ∧
  decode 0x60000000#32 = .instr .getState ∧
  decode 0x70000000#32 = .instr .getError ∧
  decode 0x80000000#32 = .instr .resetError ∧
  decode 0x90000000#32 = .instr .resetSm ∧
  decode 0xA0000000#32 = .instr .getLastFrame ∧
  decode 0xB0000000#32 = .instr .breakIn ∧
  decode 0xC0000050#32 = .instr (.rxByte 0x50#8) ∧
  decode 0xDFFFFFFF#32 = .instr (.tick 0xFFFFFFF#28)

/-- Decoding the word of a well-formed operation gives the operation back, at every value of every operand (R92). -/
def Obligations.DecodeOfEncode : Prop :=
  ∀ i : Instr, i.wellFormed = true → decode (encode i) = .instr i

/-- A registration word loses exactly two things: the ID bits 7:6, and H when P = 0 (R92). -/
def Obligations.DecodeOfEncodedRegistration : Prop :=
  ∀ (idraw len : Byte) (p : Bool) (h : Byte),
    decode (encode (.regMreq idraw len p h)) = .instr (.regMreq (idraw &&& 0x3F#8) len p (if p then h else 0#8)) ∧
    decode (encode (.regSresp idraw len p h)) = .instr (.regSresp (idraw &&& 0x3F#8) len p (if p then h else 0#8))

/-- Encoding a decoded word gives the word, but for the bits that decoding discards: bits 7:6 of a registration, and
its bits 27:20 when bit 19 is 0 (R92). What is decoded is well formed. -/
def Obligations.EncodeOfDecode : Prop :=
  ∀ (w : Word) (i : Instr), decode w = .instr i →
    i.wellFormed = true ∧
    encode i =
      if opcodeOf w = 0x3#4 ∨ opcodeOf w = 0x4#4 then
        w &&& (if w.getLsbD 19 then 0xFFFFFF3F#32 else 0xF00FFF3F#32)
      else w

/-- No two rows of the opcode map select one word, and a selected row's operation is what the word decodes to (R76,
R92). -/
def Obligations.DecodeBySelectedRow : Prop :=
  ∀ w : Word,
    (∀ r ∈ opRows, ∀ r' ∈ opRows, r.selects w = true → r'.selects w = true → r = r') ∧
    (∀ r ∈ opRows, r.selects w = true → decode w = .instr (r.op.build w)) ∧
    ((∀ r ∈ opRows, r.selects w = false) → ∃ why, decode w = .refused why)

/-- R77, R229: a word is refused exactly when its opcode is 0x0, 0xE or 0xF or a must-be-zero bit of its format is 1; it
then changes no engine state and marks REFUSED with the word, and the state is not final. -/
def Obligations.RefusedWordsExactly : Prop :=
  ∀ w : Word,
    ((∃ why, decode w = .refused why) ↔
      (w.extractLsb' 28 4 ∈ [0x0#4, 0xE#4, 0xF#4] ∨
       (w.extractLsb' 28 4 = 0x1#4 ∧ w.extractLsb' 24 4 ≠ 0#4) ∨
       (w.extractLsb' 28 4 ∈ [0x2#4, 0x5#4, 0x6#4, 0x7#4, 0x8#4, 0x9#4, 0xA#4, 0xB#4] ∧ w.extractLsb' 0 28 ≠ 0#28) ∨
       (w.extractLsb' 28 4 ∈ [0x3#4, 0x4#4] ∧ w.extractLsb' 16 3 ≠ 0#3) ∨
       (w.extractLsb' 28 4 = 0xC#4 ∧ w.extractLsb' 8 20 ≠ 0#20))) ∧
    ∀ (s : State) (rest : List Word) (why : DecodeRefusal), s.ops = w :: rest → decode w = .refused why →
      ∃ t, step s = .next t ∧ t = { s with ops := rest, refused := s.refused ++ [w] } ∧ final t = false

/-- R90: the word of every assembler line is the encoding of its operation, `null` being the absent callback. -/
def Obligations.AssemblerWords : Prop :=
  (∀ baud : BitVec 24, assemble (.openLine baud.toNat) = some (encode (.openIf baud))) ∧
  (∀ id len h : Byte,
    assemble (.regMreq id.toNat len.toNat (some h.toNat)) = some (encode (.regMreq id len true h)) ∧
    assemble (.regMreq id.toNat len.toNat none) = some (encode (.regMreq id len false 0#8)) ∧
    assemble (.regSresp id.toNat len.toNat (some h.toNat)) = some (encode (.regSresp id len true h)) ∧
    assemble (.regSresp id.toNat len.toNat none) = some (encode (.regSresp id len false 0#8))) ∧
  (∀ b : Byte, assemble (.rx b.toNat) = some (encode (.rxByte b))) ∧
  (∀ d : BitVec 28, assemble (.tick d.toNat) = some (encode (.tick d))) ∧
  assemble .close = some (encode .closeIf) ∧ assemble .process = some (encode .process) ∧
  assemble .getState = some (encode .getState) ∧ assemble .getError = some (encode .getError) ∧
  assemble .resetError = some (encode .resetError) ∧ assemble .resetSm = some (encode .resetSm) ∧
  assemble .getFrame = some (encode .getLastFrame) ∧ assemble .brk = some (encode .breakIn)

/-- R78: the eight one-hot codes, and every other 8-bit value is illegal. -/
def Obligations.StateCodes : Prop :=
  Phase.off.code = 0x01#8 ∧ Phase.waitForBreak.code = 0x02#8 ∧ Phase.waitForSync.code = 0x04#8 ∧
  Phase.waitForPid.code = 0x08#8 ∧ Phase.receivingData.code = 0x10#8 ∧ Phase.receivingEcho.code = 0x20#8 ∧
  Phase.waitForChecksum.code = 0x40#8 ∧ Phase.done.code = 0x80#8 ∧
  ∀ c : Byte, legal c = decide (c ∈ [0x01#8, 0x02#8, 0x04#8, 0x08#8, 0x10#8, 0x20#8, 0x40#8, 0x80#8])

/-! ### The step and reset -/

/-- A step with an operation word pending runs the decoded operation, on the state with the word taken from the pending
words. The pending words are the model's own field (assumption 1). -/
def Obligations.StepRunsDecodedWord : Prop :=
  ∀ (s : State) (w : Word) (rest : List Word) (i : Instr), s.ops = w :: rest → decode w = .instr i →
    step s = exec i { s with ops := rest }

/-- With no operation issued a step leaves the engine as it is: the model's reading of R2 (assumption 6). -/
def Obligations.StepIdlesWithoutOperation : Prop :=
  ∀ s : State, s.ops = [] → step s = .next s

/-- R250: the value of every state element at reset. -/
def Obligations.ResetValues : Prop :=
  State.reset.state = 0x01#8 ∧ State.reset.err = 0x00#8 ∧
  State.reset.fc.pid = 0#8 ∧ State.reset.fc.id = 0#6 ∧ State.reset.fc.kind = .mr ∧ State.reset.fc.len = 0#4 ∧
  State.reset.fc.h = 0#8 ∧ (∀ k < 9, bufAt State.reset.fc.buf k = 0#8) ∧ State.reset.fc.idx = 0#4 ∧
  State.reset.fc.tLast = 0#32 ∧ State.reset.brk = false ∧
  (∀ i : FrameId, slotAt State.reset i = { kind := .mr, len := 0#4, present := false, handle := 0#8 }) ∧
  State.reset.lf.kind = .mr ∧ State.reset.lf.id = 0#6 ∧ State.reset.lf.len = 0#4 ∧
  State.reset.lf.data.toList = List.replicate 8 0x00#8 ∧
  State.reset.now = 0#32 ∧ State.reset.rxq = [] ∧ State.reset.txen = false ∧ State.reset.tx = [] ∧
  State.reset.events = [] ∧ State.reset.reads = [] ∧ State.reset.faults = [] ∧ State.reset.refused = []

/-- The invariants hold at reset (R35, R31, R250). -/
def Obligations.ResetMeetsInvariants : Prop :=
  EngineInv Config.params State.reset ∧ TxenInv Config.params State.reset

/-- The invariants of R35 are inductive: every step from a state that meets them gives a state that meets them. -/
def Obligations.StepKeepsInvariants : Prop :=
  ∀ s t : State, EngineInv Config.params s → step s = .next t → EngineInv Config.params t

/-- R35: the invariants hold in every state reachable from reset, whatever words the agents issue in whatever order. -/
def Obligations.ReachableMeetsInvariants : Prop :=
  ∀ s : State, Reachable s → EngineInv Config.params s

/-- From a state that meets R35 a step never stops: the model's own faults (assumption 4) are for states R35 rules out,
and no operation is refused. -/
def Obligations.StepNeverStops : Prop :=
  ∀ s : State, EngineInv Config.params s → ∃ t, step s = .next t

/-- R31: TX is only appended to, only by the slave-response step of PROCESS (WaitForPid to ReceivingEcho), and by all n+1
bytes at once. TXEN is 1 exactly while STATE is ReceivingEcho if a line is configured, and 0 always if not: every step
keeps that, and it holds in every reachable state. Both start empty. -/
def Obligations.TransmitOutputs : Prop :=
  State.reset.tx = [] ∧ State.reset.txen = false ∧
  (∀ (i : Instr) (s t : State), exec i s = .next t → t.tx = s.tx ∨
    (i = .process ∧ s.state = 0x08#8 ∧ t.state = 0x20#8 ∧
      ∃ xs, t.tx = s.tx ++ xs ∧ xs.length = t.fc.len.toNat + 1)) ∧
  (∀ s t : State, TxenInv Config.params s → step s = .next t → TxenInv Config.params t) ∧
  ∀ s : State, Reachable s → (s.txen = true ↔ (Config.params.hasTxen = true ∧ s.state = 0x20#8))

/-- R227: no step sets ERR bit 0x40, nor the reserved bit 0x80 (R79), and both are 0 in every reachable state. -/
def Obligations.UnusedErrorBitsNeverSet : Prop :=
  (∀ s t : State, step s = .next t → (t.err &&& 0xC0#8) &&& ~~~s.err = 0#8) ∧
  ∀ s : State, Reachable s → s.err &&& 0xC0#8 = 0#8

/-- The machine's step is the step of an engine with the machine's parameters, so what holds of `stepOn` for all
parameters holds of it (R6, R251). -/
def Obligations.StepUsesMachineParameters : Prop :=
  ∀ s : State, step s = stepOn Config.params s

/-! ### Whole-machine rules -/

/-- R21: STATE starts as Off; only PROCESS, OPEN, CLOSE and RESET_SM write it, and no operation writes a value outside the
eight codes; GET_STATE and PROCESS read it, PROCESS answering an illegal value with ERROR_STATE and Done. -/
def Obligations.StateWrittenByFourOperations : Prop :=
  State.reset.state = 0x01#8 ∧
  ∀ (i : Instr) (s t : State), exec i s = .next t →
    (i.op ∉ [.process, .openIf, .closeIf, .resetSm] → t.state = s.state) ∧
    (t.state = s.state ∨ t.state ∈ [0x01#8, 0x02#8, 0x04#8, 0x08#8, 0x10#8, 0x20#8, 0x40#8, 0x80#8]) ∧
    (i = .getState → t.reads = s.reads ++ [.state8 s.state]) ∧
    (i = .process → s.state ∉ [0x01#8, 0x02#8, 0x04#8, 0x08#8, 0x10#8, 0x20#8, 0x40#8, 0x80#8] →
      t.err = s.err ||| 0x01#8 ∧ t.state = 0x80#8)

/-- R23: ERR starts as 0x00; only RESET_ERROR clears a bit of it, writing 0x00; only PROCESS sets one, by ORing the error's
bit in, and then only by the error entry, so that a break and a successful frame leave it unchanged; GET_ERROR reads it.
That the error entry leaves TXEN at 0 has R35 (g) as its premise, so it does not rest on assumption 5. -/
def Obligations.ErrorMaskIsSticky : Prop :=
  State.reset.err = 0x00#8 ∧
  ∀ (i : Instr) (s t : State), exec i s = .next t →
    (i = .resetError → t.err = 0x00#8) ∧
    (i = .getError → t.reads = s.reads ++ [.error8 s.err]) ∧
    (i ≠ .resetError → s.err &&& ~~~t.err = 0#8) ∧
    (i ≠ .resetError → i ≠ .process → t.err = s.err) ∧
    (i = .process → t.err = s.err ∨
      ∃ k : ErrorKind, k ≠ .misc ∧ t.err = s.err ||| k.mask ∧ t.state = 0x80#8 ∧
        ((s.txen = true → Config.params.hasTxen = true ∧ inPhase .receivingEcho s) → t.txen = false) ∧
        t.fc = FrameContext.zero ∧ t.events = s.events ∧ t.lf = s.lf ∧ t.tx = s.tx)

/-- R61: EVENTS, TX and READS grow in step order; RXQ is first-in first-out: what a step leaves of the queue is what was
there, its head popped, the byte of RX_BYTE at its tail, or nothing, but at a full queue (assumption 2). -/
def Obligations.SequencesGrowInStepOrder : Prop :=
  ∀ (P : Params) (s t : State), stepOn P s = .next t →
    s.tx <+: t.tx ∧ s.events <+: t.events ∧ s.reads <+: t.reads ∧
    (t.rxq = s.rxq ∨ (∃ b, s.rxq = b :: t.rxq) ∨ (∃ b, t.rxq = s.rxq ++ [b]) ∨ t.rxq = [] ∨
      ∃ depth, P.rxDepth = some depth ∧ depth ≤ s.rxq.length ∧ t.rxOverflows = s.rxOverflows + 1)

/-- R33, R228, R229: the marks start empty; a fault mark comes only from a registration with len above 8 and a refusal
mark only from a refused word, each leaving every other element unchanged; no mark is ever cleared; a state with a mark is
not final, and no later step makes it so. -/
def Obligations.MarksAndFinalStates : Prop :=
  State.reset.faults = [] ∧ State.reset.refused = [] ∧
  ∀ s t : State, step s = .next t →
    (t.faults = s.faults ∨
      ∃ w rest idraw len p h, s.ops = w :: rest ∧
        (decode w = .instr (.regMreq idraw len p h) ∨ decode w = .instr (.regSresp idraw len p h)) ∧ 8 < len.toNat ∧
        t = { s with ops := rest, faults := s.faults ++ [.contractViolation len] }) ∧
    (t.refused = s.refused ∨
      ∃ w rest why, s.ops = w :: rest ∧ decode w = .refused why ∧
        t = { s with ops := rest, refused := s.refused ++ [w] }) ∧
    (s.faults ≠ [] ∨ s.refused ≠ [] → final s = false ∧ final t = false)

/-- R27: only REG_MREQ and REG_SRESP write TABLE, and each writes no slot but `idraw & 0x3F`. -/
def Obligations.TableWrittenByRegistration : Prop :=
  ∀ (i : Instr) (s t : State), exec i s = .next t →
    match i with
    | .regMreq idraw _ _ _ => ∀ j : FrameId, j ≠ idraw.setWidth 6 → slotAt t j = slotAt s j
    | .regSresp idraw _ _ _ => ∀ j : FrameId, j ≠ idraw.setWidth 6 → slotAt t j = slotAt s j
    | _ => t.table = s.table

/-- R28: LF changes only in a PROCESS that completes a frame: the checksum of a master request matches (R135) or the
last byte of a slave response's echo matches (R140); it is then written whole, and ERR is unchanged. -/
def Obligations.SnapshotWrittenOnCompletion : Prop :=
  ∀ (i : Instr) (s t : State), exec i s = .next t → t.lf ≠ s.lf →
    i = .process ∧ t.err = s.err ∧ t.state = 0x80#8 ∧
    ∃ b rest, s.rxq = b :: rest ∧ t.rxq = rest ∧
      ((s.state = 0x40#8 ∧ b = checksum Config.params.version s.fc.pid s.fc.id (dataOf s.fc) ∧
          t.lf = { kind := .mr, id := s.fc.id, len := s.fc.len, data := padData (dataOf s.fc) }) ∨
       (s.state = 0x20#8 ∧ s.fc.idx = s.fc.len ∧ b = bufAt s.fc.buf s.fc.len.toNat ∧
          t.lf = { kind := .sr, id := s.fc.id, len := s.fc.len, data := padData (dataOf s.fc) }))

/-- R29: only TICK changes NOW. -/
def Obligations.TimeAdvancedOnlyByTick : Prop :=
  ∀ (i : Instr) (s t : State), exec i s = .next t → i.op ≠ .tick → t.now = s.now

/-- R26: BRK starts as 0; BREAK_IN sets it, OPEN clears it, PROCESS clears it only together with taking the break, in the
same step, and no other operation changes it; so no break is lost between the test and the clear, and the timeout leaves
it pending. -/
def Obligations.BreakFlagWriters : Prop :=
  State.reset.brk = false ∧
  ∀ (i : Instr) (s t : State), exec i s = .next t →
    match i with
    | .breakIn => t.brk = true
    | .openIf _ => t.brk = false
    | .process => t.brk = s.brk ∨
        (s.brk = true ∧ t.brk = false ∧ t.state = 0x04#8 ∧ t.fc = { FrameContext.zero with tLast := s.now } ∧
          t.rxq = s.rxq ∧ t.err = s.err)
    | _ => t.brk = s.brk

/-- R206: the transport acts on the engine's state only through BRK (BREAK_IN) and RXQ (RX_BYTE). The model's count of
arrivals at a full queue goes with RXQ (assumption 2). -/
def Obligations.TransportActsOnBreakAndQueueOnly : Prop :=
  ∀ (i : Instr) (s t : State), i.agent = .transport → exec i s = .next t →
    t = { s with brk := t.brk, rxq := t.rxq, rxOverflows := t.rxOverflows } ∧
    (i = .breakIn → t.rxq = s.rxq ∧ t.rxOverflows = s.rxOverflows) ∧ (i ≠ .breakIn → t.brk = s.brk)

/-- R62, R130, R174: a PROCESS outside WaitForPid does not depend on TABLE, so a registration is not seen by the frame in
flight. -/
def Obligations.FrameInFlightIgnoresTable : Prop :=
  ∀ (s t : State) (tb : Vector Slot 64), s.state ≠ 0x08#8 → exec .process s = .next t →
    exec .process { s with table := tb } = .next { t with table := tb }

/-- R63, R233: a step of one engine leaves every other engine and every engine's parameters as they are, and is the
engine's own step. -/
def Obligations.EnginesShareNothing : Prop :=
  ∀ (k : Nat) (sys sys' : List Engine), systemStep k sys = .next sys' →
    sys'.length = sys.length ∧ (∀ j, j ≠ k → sys'[j]? = sys[j]?) ∧
    ∀ e, sys[k]? = some e → ∃ t, stepOn e.params e.state = .next t ∧ sys'[k]? = some { params := e.params, state := t }

/-! ### Lifecycle, transport and time -/

/-- R200, R201, R184: the words and the agent of OPEN, CLOSE and RESET_SM, and their effect in every state, an illegal STATE
included; every element not named keeps its value. -/
def Obligations.LifecycleResults : Prop :=
  (∀ baud : BitVec 24, encode (.openIf baud) = 0x10000000#32 ||| baud.setWidth 32 ∧
    (Instr.openIf baud).agent = .consumer) ∧
  encode .closeIf = 0x20000000#32 ∧ Instr.closeIf.agent = .consumer ∧
  encode .resetSm = 0x90000000#32 ∧ Instr.resetSm.agent = .consumer ∧
  ∀ (s : State) (baud : BitVec 24),
    exec (.openIf baud) s =
      .next { s with state := 0x02#8, fc := FrameContext.zero, txen := false, brk := false, rxq := [] } ∧
    exec .closeIf s = .next { s with state := 0x01#8, fc := FrameContext.zero, txen := false } ∧
    exec .resetSm s = .next { s with state := 0x02#8, fc := FrameContext.zero, txen := false }

/-- R202, R204: the words and the agents of BREAK_IN and TICK. BREAK_IN sets BRK alone; TICK adds its zero-extended delta to
NOW modulo 2^32, alone. -/
def Obligations.BreakInAndTickResults : Prop :=
  encode .breakIn = 0xB0000000#32 ∧ Instr.breakIn.agent = .transport ∧
  (∀ d : BitVec 28, encode (.tick d) = 0xD0000000#32 ||| d.setWidth 32 ∧ (Instr.tick d).agent = .environment) ∧
  ∀ (s : State) (d : BitVec 28),
    exec .breakIn s = .next { s with brk := true } ∧
    ∃ t, exec (.tick d) s = .next t ∧ t.now.toNat = (s.now.toNat + d.toNat) % 2 ^ 32 ∧ t = { s with now := t.now }

/-- R203: the word and the agent of RX_BYTE; in every state it appends the byte to RXQ, alone, where RX_DEPTH leaves room.
Stated of an engine with any parameters; the machine's own RX_BYTE is `ByteAlwaysAccepted`. -/
def Obligations.ByteArrives : Prop :=
  (∀ b : Byte, encode (.rxByte b) = 0xC0000000#32 ||| b.setWidth 32 ∧ (Instr.rxByte b).agent = .transport) ∧
  ∀ (P : Params) (b : Byte) (s : State), (∀ depth, P.rxDepth = some depth → s.rxq.length < depth) →
    execOn P (.rxByte b) s = .next { s with rxq := s.rxq ++ [b] }

/-- The machine's RX_BYTE completes in every state: the byte is queued, alone, or the queue was full. What a full queue
becomes is the transport's and out of scope (R203): it is a free value within RX_DEPTH, counted, and nothing else changes
(the model's choice, assumption 2). A queue within its depth stays within it at every step, whatever the parameters. -/
def Obligations.ByteAlwaysAccepted : Prop :=
  (∀ (b : Byte) (s : State), ∃ t, exec (.rxByte b) s = .next t ∧
    (t = { s with rxq := s.rxq ++ [b] } ∨
      ∃ depth, Config.params.rxDepth = some depth ∧ depth ≤ s.rxq.length ∧ t.rxq.length ≤ depth ∧
        t = { s with rxq := t.rxq, rxOverflows := s.rxOverflows + 1 })) ∧
  (∀ (P : Params) (b : Byte) (s : State) (depth : Nat), P.rxDepth = some depth → depth ≤ s.rxq.length →
    ∃ q : List Byte, q.length ≤ depth ∧
      execOn P (.rxByte b) s = .next { s with rxq := q, rxOverflows := s.rxOverflows + 1 }) ∧
  (∀ (P : Params) (depth : Nat) (s t : State), P.rxDepth = some depth → s.rxq.length ≤ depth →
    stepOn P s = .next t → t.rxq.length ≤ depth)

/-! ### Registration -/

/-- R170, R171: the opcodes and the agent of REG_MREQ and REG_SRESP; in every state, with len in 0..8, the slot
`idraw & 0x3F` is overwritten whole, H stored as 0 when P = 0, and every other slot and every other element is unchanged. -/
def Obligations.RegistrationWritesSlot : Prop :=
  encode (.regMreq 0x2A#8 2#8 true 9#8) = 0x3098022A#32 ∧ encode (.regSresp 0x10#8 4#8 true 7#8) = 0x40780410#32 ∧
  ∀ (idraw len : Byte) (p : Bool) (h : Byte),
    opcodeOf (encode (.regMreq idraw len p h)) = 0x3#4 ∧ (Instr.regMreq idraw len p h).agent = .consumer ∧
    opcodeOf (encode (.regSresp idraw len p h)) = 0x4#4 ∧ (Instr.regSresp idraw len p h).agent = .consumer ∧
    ∀ s : State, len.toNat ≤ 8 →
      (∃ t, exec (.regMreq idraw len p h) s = .next t ∧
        slotAt t (idraw.setWidth 6) =
          { kind := .mr, len := len.setWidth 4, present := p, handle := if p then h else 0#8 } ∧
        (∀ j : FrameId, j ≠ idraw.setWidth 6 → slotAt t j = slotAt s j) ∧ t = { s with table := t.table }) ∧
      (∃ t, exec (.regSresp idraw len p h) s = .next t ∧
        slotAt t (idraw.setWidth 6) =
          { kind := .sr, len := len.setWidth 4, present := p, handle := if p then h else 0#8 } ∧
        (∀ j : FrameId, j ≠ idraw.setWidth 6 → slotAt t j = slotAt s j) ∧ t = { s with table := t.table })

/-- R172, R228: a registration with len above 8 marks FAULTS with ContractViolation(len), leaves every other element
unchanged, and the state is not final. -/
def Obligations.RegistrationLengthContract : Prop :=
  ∀ (i : Instr) (idraw len : Byte) (p : Bool) (h : Byte) (s : State), 8 < len.toNat →
    (i = .regMreq idraw len p h ∨ i = .regSresp idraw len p h) →
    exec i s = .next { s with faults := s.faults ++ [.contractViolation len] } ∧
    final { s with faults := s.faults ++ [.contractViolation len] } = false

/-- R173, R129: after a registration with the null callback, the frame whose PID step comes next is dropped without an
error, whatever kind and length are stored: STATE WaitForBreak, FC cleared, the PID byte consumed, nothing else. No other
operation removes a slot. -/
def Obligations.DeregisteredFrameIsDropped : Prop :=
  (∀ (idraw len h : Byte) (s : State) (rest : List Byte), len.toNat ≤ 8 →
    BytePending Config.params .waitForPid (calcPID idraw) rest s →
    ∃ t u, exec (.regMreq idraw len false h) s = .next t ∧ exec (.regSresp idraw len false h) s = .next u ∧
      slotAt t (idraw.setWidth 6) = { kind := .mr, len := len.setWidth 4, present := false, handle := 0#8 } ∧
      slotAt u (idraw.setWidth 6) = { kind := .sr, len := len.setWidth 4, present := false, handle := 0#8 } ∧
      exec .process t = .next { t with state := 0x02#8, fc := FrameContext.zero, rxq := rest } ∧
      exec .process u = .next { u with state := 0x02#8, fc := FrameContext.zero, rxq := rest }) ∧
  ∀ (i : Instr) (s t : State) (j : FrameId), exec i s = .next t →
    (slotAt s j).present = true → (slotAt t j).present = false →
    ∃ idraw len h, (i = .regMreq idraw len false h ∨ i = .regSresp idraw len false h) ∧ len.toNat ≤ 8 ∧
      j = idraw.setWidth 6

/-! ### Accessors -/

/-- R32, R87, R180 to R183: the words and the agent of the accessors. Each GET appends its one result to READS, in every
state, and changes nothing else, GET_ERROR not clearing the mask and GET_STATE giving the raw register; no other operation
appends to READS; RESET_ERROR writes 0x00 to ERR and changes nothing else, STATE and the frame in flight included. A FRAME
result packs into ten bytes, the kind (MR 0, SR 1, R80) in bit 7 over the ID, then len, then all eight data bytes, which
are 0x00 at positions from len up in every reachable state. -/
def Obligations.AccessorResults : Prop :=
  encode .getState = 0x60000000#32 ∧ encode .getError = 0x70000000#32 ∧ encode .resetError = 0x80000000#32 ∧
  encode .getLastFrame = 0xA0000000#32 ∧ Instr.getState.agent = .consumer ∧ Instr.getError.agent = .consumer ∧
  Instr.resetError.agent = .consumer ∧ Instr.getLastFrame.agent = .consumer ∧ State.reset.reads = [] ∧
  (∀ s : State,
    exec .getState s = .next { s with reads := s.reads ++ [.state8 s.state] } ∧
    exec .getError s = .next { s with reads := s.reads ++ [.error8 s.err] } ∧
    exec .getLastFrame s = .next { s with reads := s.reads ++ [.frame s.lf] } ∧
    exec .resetError s = .next { s with err := 0x00#8 }) ∧
  (∀ (i : Instr) (s t : State), exec i s = .next t → i ∉ [.getState, .getError, .getLastFrame] → t.reads = s.reads) ∧
  FrameKind.mr.code = 0#1 ∧ FrameKind.sr.code = 1#1 ∧
  (∀ f : LastFrame, f.packed.length = 10 ∧
    f.packed.getD 0 0#8 = (f.kind.code.setWidth 8 <<< 7) ||| f.id.setWidth 8 ∧
    (f.packed.getD 1 0#8).toNat = f.len.toNat ∧ f.packed.drop 2 = f.data.toList) ∧
  ∀ s : State, Reachable s → ∀ k, s.lf.len.toNat ≤ k → s.lf.data.toList.getD k 0x00#8 = 0x00#8

/-! ### PROCESS -/

/-- R121: a STATE outside the eight codes raises ERROR_STATE, clears FC, drops TXEN and goes to Done; BRK and RXQ and every
other element are unchanged, whatever is pending. -/
def Obligations.ProcessRecoversIllegalState : Prop :=
  ∀ s : State, s.state ∉ [0x01#8, 0x02#8, 0x04#8, 0x08#8, 0x10#8, 0x20#8, 0x40#8, 0x80#8] →
    exec .process s =
      .next { s with state := 0x80#8, err := s.err ||| 0x01#8, fc := FrameContext.zero, txen := false }

/-- R120: PROCESS changes nothing in Off, whatever is pending, and with nothing pending in any other legal state. -/
def Obligations.ProcessDoesNothing : Prop :=
  ∀ (s : State) (ph : Phase), inPhase ph s →
    (ph = .off ∨
      ((ph.inFrame = true → elapsedTicks s ≤ Config.params.tTimeout.toNat) ∧ s.brk = false ∧ s.rxq = [])) →
    exec .process s = .next s

/-- R122: with a frame in flight and more than T_TIMEOUT ticks elapsed modulo 2^32, PROCESS raises ERROR_TIMEOUT, flushes
RXQ, clears FC, drops TXEN and goes to Done, a pending break staying pending; with no more than T_TIMEOUT elapsed, or no
frame in flight, it sets no timeout bit. -/
def Obligations.ProcessTimeout : Prop :=
  ∀ (P : Params) (ph : Phase) (s : State), inPhase ph s →
    (ph ∈ [.waitForSync, .waitForPid, .receivingData, .receivingEcho, .waitForChecksum] →
      P.tTimeout.toNat < elapsedTicks s →
      execOn P .process s =
        .next { s with state := 0x80#8, err := s.err ||| 0x04#8, fc := FrameContext.zero, txen := false, rxq := [] }) ∧
    ((elapsedTicks s ≤ P.tTimeout.toNat ∨ ph ∈ [.off, .waitForBreak, .done]) →
      ∀ t, execOn P .process s = .next t → t.err &&& 0x04#8 = s.err &&& 0x04#8)

/-- R123: with a break pending in a legal state other than Off and no timeout, PROCESS clears BRK, clears FC and stamps
FC.t_last with NOW, drops TXEN and goes to WaitForSync; RXQ, ERR, LF and EVENTS and every other element are unchanged. -/
def Obligations.ProcessTakesBreak : Prop :=
  ∀ (ph : Phase) (s : State), inPhase ph s → ph ≠ .off →
    (ph.inFrame = true → elapsedTicks s ≤ Config.params.tTimeout.toNat) → s.brk = true →
    exec .process s =
      .next { s with state := 0x04#8, brk := false, fc := { FrameContext.zero with tLast := s.now }, txen := false }

/-- R125, R142: a byte in WaitForBreak or Done is dropped; only RXQ changes. Only a break, OPEN, CLOSE or RESET_SM leaves
Done. -/
def Obligations.ProcessDropsByte : Prop :=
  (∀ (ph : Phase) (b : Byte) (rest : List Byte) (s : State), ph = .waitForBreak ∨ ph = .done →
    BytePending Config.params ph b rest s →
    exec .process s = .next { s with rxq := rest }) ∧
  ∀ (i : Instr) (s t : State), s.state = 0x80#8 → exec i s = .next t →
    t.state = 0x80#8 ∨ i.op ∈ [.openIf, .closeIf, .resetSm] ∨ (i = .process ∧ s.brk = true ∧ t.state = 0x04#8)

/-- R126: the SYNC byte 0x55 goes to WaitForPid, FC.t_last stamped as for every consumed byte; any other byte raises
ERROR_SYNC, clears FC and goes to Done. For the mismatch TXEN is 0, as R35 (g) says of this state. -/
def Obligations.ProcessSyncByte : Prop :=
  ∀ (b : Byte) (rest : List Byte) (s : State), BytePending Config.params .waitForSync b rest s →
    (b = 0x55#8 →
      exec .process s = .next { s with state := 0x08#8, rxq := rest, fc := { s.fc with tLast := s.now } }) ∧
    (b ≠ 0x55#8 → s.txen = false →
      exec .process s =
        .next { s with state := 0x80#8, rxq := rest, err := s.err ||| 0x10#8, fc := FrameContext.zero })

/-- R128, R101: a byte in WaitForPid whose two parity bits are not those of its ID raises ERROR_PID, clears FC and goes to
Done, TABLE playing no part. TXEN is 0, as R35 (g) says of this state. -/
def Obligations.ProcessPidParityError : Prop :=
  ∀ (b : Byte) (rest : List Byte) (s : State), BytePending Config.params .waitForPid b rest s → s.txen = false →
    (b.getLsbD 6 ≠ (b.getLsbD 0 ^^ b.getLsbD 1 ^^ b.getLsbD 2 ^^ b.getLsbD 4) ∨
      b.getLsbD 7 = (b.getLsbD 1 ^^ b.getLsbD 3 ^^ b.getLsbD 4 ^^ b.getLsbD 5)) →
    exec .process s =
      .next { s with state := 0x80#8, rxq := rest, err := s.err ||| 0x20#8, fc := FrameContext.zero }

/-- R129: a valid PID of an ID with no callback clears FC and goes to WaitForBreak; no error, no event, no byte sent. -/
def Obligations.ProcessDropsUnregistered : Prop :=
  ∀ (x : Byte) (rest : List Byte) (s : State), BytePending Config.params .waitForPid (calcPID x) rest s →
    (slotAt s (x.setWidth 6)).present = false →
    exec .process s = .next { s with state := 0x02#8, rxq := rest, fc := FrameContext.zero }

/-- R130, R132: a valid PID of a registered master request latches FC from the byte and the slot and goes to
ReceivingData, or to WaitForChecksum when the length is 0; no event yet, and nothing else changes. -/
def Obligations.ProcessStartsMasterRequest : Prop :=
  ∀ (x : Byte) (rest : List Byte) (s : State) (e : Slot), BytePending Config.params .waitForPid (calcPID x) rest s →
    slotAt s (x.setWidth 6) = e → e.present = true → e.kind = .mr →
    exec .process s =
      .next { s with state := if e.len = 0#4 then 0x40#8 else 0x10#8, rxq := rest,
                     fc := { pid := calcPID x, id := x.setWidth 6, kind := .mr, len := e.len, h := e.handle,
                             buf := s.fc.buf, idx := 0#4, tLast := s.now } }

/-- R130, R131: a valid PID of a registered slave response emits SR_CALL, sends the callback's n bytes and their checksum
to TX in order, raises TXEN if a line is configured, leaves the same n+1 bytes at the start of FC.buf and the rest of it
as it was, and goes to ReceivingEcho; nothing else changes. -/
def Obligations.ProcessSendsSlaveResponse : Prop :=
  ∀ (x : Byte) (rest : List Byte) (s : State) (e : Slot), BytePending Config.params .waitForPid (calcPID x) rest s →
    slotAt s (x.setWidth 6) = e → e.present = true → e.kind = .sr → e.len.toNat ≤ 8 →
    ∃ t data c, data = respondBytes Config.params e.handle (x.setWidth 6) e.len.toNat ∧
      c = checksum Config.params.version (calcPID x) (x.setWidth 6) data ∧
      exec .process s = .next t ∧ t.state = 0x20#8 ∧ t.rxq = rest ∧
      t.events = s.events ++ [.srCall e.handle (x.setWidth 6) e.len] ∧ t.tx = s.tx ++ (data ++ [c]) ∧
      t.txen = (Config.params.hasTxen || s.txen) ∧
      t.fc.pid = calcPID x ∧ t.fc.id = x.setWidth 6 ∧ t.fc.kind = .sr ∧ t.fc.len = e.len ∧ t.fc.h = e.handle ∧
      t.fc.idx = 0#4 ∧ t.fc.tLast = s.now ∧ dataOf t.fc = data ∧ bufAt t.fc.buf e.len.toNat = c ∧
      (∀ k, e.len.toNat < k → bufAt t.fc.buf k = bufAt s.fc.buf k) ∧
      t = { s with state := t.state, rxq := t.rxq, events := t.events, tx := t.tx, txen := t.txen, fc := t.fc }

/-- R133, R124: a byte in ReceivingData is stored at FC.buf[FC.idx], whatever its value, FC.idx advances, and the buffer
being full goes to WaitForChecksum; every other byte of FC.buf and every other element is unchanged. -/
def Obligations.ProcessStoresDataByte : Prop :=
  ∀ (b : Byte) (rest : List Byte) (s : State), BytePending Config.params .receivingData b rest s →
    s.fc.idx.toNat ≤ 8 →
    ∃ t, exec .process s = .next t ∧ t.rxq = rest ∧ bufAt t.fc.buf s.fc.idx.toNat = b ∧
      (∀ k, k ≠ s.fc.idx.toNat → bufAt t.fc.buf k = bufAt s.fc.buf k) ∧
      t.fc.idx.toNat = s.fc.idx.toNat + 1 ∧ t.fc = { s.fc with buf := t.fc.buf, idx := t.fc.idx, tLast := s.now } ∧
      t.state = (if s.fc.idx.toNat + 1 = s.fc.len.toNat then 0x40#8 else 0x10#8) ∧
      t = { s with state := t.state, rxq := t.rxq, fc := t.fc }

/-- R134, R135, R136: in WaitForChecksum a byte equal to the checksum of the stored data emits MR_CALL with them, writes LF
whole with zero bytes above them, clears FC and goes to Done with ERR unchanged; any other byte raises ERROR_CHK, with no
event and LF unchanged. For the mismatch TXEN is 0, as R35 (g) says of this state. -/
def Obligations.ProcessChecksMasterRequest : Prop :=
  ∀ (b : Byte) (rest : List Byte) (s : State), BytePending Config.params .waitForChecksum b rest s →
    s.fc.len.toNat ≤ 8 →
    (b = checksum Config.params.version s.fc.pid s.fc.id (s.fc.buf.toList.take s.fc.len.toNat) →
      ∃ t, exec .process s = .next t ∧
        t.events = s.events ++ [.mrCall s.fc.h s.fc.id s.fc.len (s.fc.buf.toList.take s.fc.len.toNat)] ∧
        t.lf.kind = .mr ∧ t.lf.id = s.fc.id ∧ t.lf.len = s.fc.len ∧
        t.lf.data.toList = s.fc.buf.toList.take s.fc.len.toNat ++ List.replicate (8 - s.fc.len.toNat) 0x00#8 ∧
        t = { s with state := 0x80#8, rxq := rest, fc := FrameContext.zero, events := t.events, lf := t.lf }) ∧
    (b ≠ checksum Config.params.version s.fc.pid s.fc.id (s.fc.buf.toList.take s.fc.len.toNat) → s.txen = false →
      exec .process s =
        .next { s with state := 0x80#8, rxq := rest, err := s.err ||| 0x08#8, fc := FrameContext.zero })

/-- R137 to R140: in ReceivingEcho a byte equal to FC.buf[FC.idx] advances FC.idx, and the last of the n+1 completes the
response: LF is written whole, FC cleared, TXEN dropped, Done; any other byte raises ERROR_ECHO, drops TXEN and goes to
Done with LF and EVENTS unchanged. -/
def Obligations.ProcessChecksEcho : Prop :=
  ∀ (b : Byte) (rest : List Byte) (s : State), BytePending Config.params .receivingEcho b rest s →
    s.fc.idx.toNat ≤ 8 →
    (b = bufAt s.fc.buf s.fc.idx.toNat → s.fc.idx ≠ s.fc.len →
      exec .process s =
        .next { s with rxq := rest, fc := { s.fc with idx := s.fc.idx + 1#4, tLast := s.now } }) ∧
    (b = bufAt s.fc.buf s.fc.idx.toNat → s.fc.idx = s.fc.len →
      ∃ t, exec .process s = .next t ∧ t.lf.kind = .sr ∧ t.lf.id = s.fc.id ∧ t.lf.len = s.fc.len ∧
        t.lf.data.toList = s.fc.buf.toList.take s.fc.len.toNat ++ List.replicate (8 - s.fc.len.toNat) 0x00#8 ∧
        t = { s with state := 0x80#8, rxq := rest, fc := FrameContext.zero, txen := false, lf := t.lf }) ∧
    (b ≠ bufAt s.fc.buf s.fc.idx.toNat →
      exec .process s = .next { s with state := 0x80#8, rxq := rest, err := s.err ||| 0x02#8,
                                        fc := FrameContext.zero, txen := false })

/-- Where PROCESS stops, the model's own choice (assumption 4): with a frame index or length outside the 9-byte buffer, which
R55 says does not occur and R35 rules out, and nowhere else. -/
def Obligations.ProcessStopsOutsideBuffer : Prop :=
  (∀ (b : Byte) (rest : List Byte) (s : State),
    (BytePending Config.params .receivingData b rest s → 8 < s.fc.idx.toNat →
      exec .process s = .fault (.bufferIndex s.fc.idx)) ∧
    (BytePending Config.params .receivingEcho b rest s → 8 < s.fc.idx.toNat →
      exec .process s = .fault (.bufferIndex s.fc.idx)) ∧
    (BytePending Config.params .waitForChecksum b rest s → 8 < s.fc.len.toNat →
      exec .process s = .fault (.frameLength s.fc.len)) ∧
    (∀ (x : Byte) (e : Slot), BytePending Config.params .waitForPid (calcPID x) rest s →
      slotAt s (x.setWidth 6) = e → e.present = true → e.kind = .sr → 8 < e.len.toNat →
      exec .process s = .fault (.frameLength e.len))) ∧
  (∀ (s : State) (f : Fault), exec .process s = .fault f → ∃ b rest,
    (BytePending Config.params .receivingData b rest s ∧ 8 < s.fc.idx.toNat ∧ f = .bufferIndex s.fc.idx) ∨
    (BytePending Config.params .receivingEcho b rest s ∧ 8 < s.fc.idx.toNat ∧ f = .bufferIndex s.fc.idx) ∨
    (BytePending Config.params .waitForChecksum b rest s ∧ 8 < s.fc.len.toNat ∧ f = .frameLength s.fc.len) ∨
    (∃ x e, b = calcPID x ∧ BytePending Config.params .waitForPid b rest s ∧ slotAt s (x.setWidth 6) = e ∧
      e.present = true ∧ e.kind = .sr ∧ 8 < e.len.toNat ∧ f = .frameLength e.len)) ∧
  ∀ (s : State) (r : Refusal), exec .process s ≠ .refused r

/-- The frame of PROCESS: it never writes TABLE, NOW, READS, FAULTS or REFUSED, nor the model's own fields (R120). -/
def Obligations.ProcessFrame : Prop :=
  ∀ s t : State, exec .process s = .next t →
    t.table = s.table ∧ t.now = s.now ∧ t.reads = s.reads ∧ t.faults = s.faults ∧ t.refused = s.refused ∧
    t.ops = s.ops ∧ t.rxOverflows = s.rxOverflows

/-- R120, R225: for any parameters, one PROCESS that goes on takes at most one action: it does nothing, recovers from an illegal STATE, aborts on
a timeout, takes a break, or takes the oldest byte, which leaves BRK and the state and timeout bits of ERR and raises at
most one of the four byte errors. So ERROR_STATE newly set goes with no byte, no break and no dispatch, and ERROR_TIMEOUT
newly set with no break and no dispatch and an emptied queue; a break taken leaves the queue; at most one event is emitted;
and bytes are sent only with an SR_CALL. -/
def Obligations.ProcessTakesOneAction : Prop :=
  ∀ (P : Params) (s t : State), execOn P .process s = .next t →
    (t = s ∨
      (legal s.state = false ∧
        t = { s with state := 0x80#8, err := s.err ||| 0x01#8, fc := FrameContext.zero, txen := false }) ∨
      (legal s.state = true ∧
        t = { s with state := 0x80#8, err := s.err ||| 0x04#8, fc := FrameContext.zero, txen := false, rxq := [] }) ∨
      (legal s.state = true ∧ s.brk = true ∧
        t = { s with state := 0x04#8, brk := false, fc := { FrameContext.zero with tLast := s.now }, txen := false }) ∨
      (legal s.state = true ∧ s.brk = false ∧ t.brk = false ∧ (∃ b, s.rxq = b :: t.rxq) ∧
        (t.err = s.err ∨ ∃ k : ErrorKind, k ∈ [.sync, .pid, .chk, .echo] ∧ t.err = s.err ||| k.mask))) ∧
    (s.err &&& 0x01#8 = 0#8 → t.err &&& 0x01#8 ≠ 0#8 →
      t.rxq = s.rxq ∧ t.brk = s.brk ∧ t.tx = s.tx ∧ t.events = s.events ∧ t.lf = s.lf) ∧
    (s.err &&& 0x04#8 = 0#8 → t.err &&& 0x04#8 ≠ 0#8 →
      t.rxq = [] ∧ t.brk = s.brk ∧ t.tx = s.tx ∧ t.events = s.events ∧ t.lf = s.lf) ∧
    (t.rxq = s.rxq ∨ (∃ b, s.rxq = b :: t.rxq) ∨
      (t.rxq = [] ∧ t.err = s.err ||| 0x04#8 ∧ t.state = 0x80#8 ∧ t.brk = s.brk)) ∧
    (t.brk ≠ s.brk → t.rxq = s.rxq ∧ t.err = s.err ∧ t.tx = s.tx ∧ t.events = s.events ∧ t.lf = s.lf) ∧
    (t.events = s.events ∨ ∃ e, t.events = s.events ++ [e]) ∧
    (t.tx = s.tx ∨ ∃ h id n xs, t.events = s.events ++ [.srCall h id n] ∧ t.tx = s.tx ++ xs ∧ xs.length = n.toNat + 1)

/-! ### Algorithms -/

/-- R82, R83, R100 to R102: the two parity bits and the ID bits of calcPID; the complete PID table, IDs 0x00 to 0x3F in
order; the laws of calcPID; pidValid, exactly 64 bytes passing it, and every single-bit error in one of them detected. -/
def Obligations.PidTableAndLaws : Prop :=
  (∀ x : Byte,
    (calcPID x).getLsbD 6 = (x.getLsbD 0 ^^ x.getLsbD 1 ^^ x.getLsbD 2 ^^ x.getLsbD 4) ∧
    (calcPID x).getLsbD 7 = !(x.getLsbD 1 ^^ x.getLsbD 3 ^^ x.getLsbD 4 ^^ x.getLsbD 5) ∧
    calcPID x &&& 0x3F#8 = x &&& 0x3F#8) ∧
  ((List.range 64).map (fun k => calcPID (BitVec.ofNat 8 k)) =
    [0x80#8, 0xC1#8, 0x42#8, 0x03#8, 0xC4#8, 0x85#8, 0x06#8, 0x47#8, 0x08#8, 0x49#8, 0xCA#8, 0x8B#8, 0x4C#8, 0x0D#8,
     0x8E#8, 0xCF#8] ++
    [0x50#8, 0x11#8, 0x92#8, 0xD3#8, 0x14#8, 0x55#8, 0xD6#8, 0x97#8, 0xD8#8, 0x99#8, 0x1A#8, 0x5B#8, 0x9C#8, 0xDD#8,
     0x5E#8, 0x1F#8] ++
    [0x20#8, 0x61#8, 0xE2#8, 0xA3#8, 0x64#8, 0x25#8, 0xA6#8, 0xE7#8, 0xA8#8, 0xE9#8, 0x6A#8, 0x2B#8, 0xEC#8, 0xAD#8,
     0x2E#8, 0x6F#8] ++
    [0xF0#8, 0xB1#8, 0x32#8, 0x73#8, 0xB4#8, 0xF5#8, 0x76#8, 0x37#8, 0x78#8, 0x39#8, 0xBA#8, 0xFB#8, 0x3C#8, 0x7D#8,
     0xFE#8, 0xBF#8]) ∧
  (∀ x : Byte, pidValid (calcPID x) = true ∧ calcPID (calcPID x) = calcPID x) ∧
  (∀ x y : FrameId, calcPID (x.setWidth 8) = calcPID (y.setWidth 8) → x = y) ∧
  (∀ b : Byte, pidValid b = decide (b = calcPID (b &&& 0x3F#8))) ∧
  ((List.range 256).filter (fun k => pidValid (BitVec.ofNat 8 k))).length = 64 ∧
  (∀ b : Byte, pidValid b = true → pidValid (b ^^^ 0xC0#8) = false ∧ ∀ k : Fin 8, pidValid (b ^^^ (1#8 <<< k.val)) = false)

/-- R103, R104: the accumulator starts at 0 under V1, and under V2 for IDs 0x3C and 0x3D, and at the PID otherwise; each data
byte is added, 255 being subtracted when the sum exceeds 255; the checksum is the complement of the accumulator. -/
def Obligations.ChecksumComputation : Prop :=
  ∀ (v : Version) (pid : Byte) (id : FrameId),
    checksumAcc v pid id [] = (if v = .v1 ∨ id = 0x3C#6 ∨ id = 0x3D#6 then 0 else pid.toNat) ∧
    ∀ data : List Byte,
      (∀ b : Byte, checksumAcc v pid id (data ++ [b]) =
        if checksumAcc v pid id data + b.toNat > 255 then checksumAcc v pid id data + b.toNat - 255
        else checksumAcc v pid id data + b.toNat) ∧
      (checksum v pid id data).toNat = 255 - checksumAcc v pid id data ∧ checksumAcc v pid id data ≤ 255

/-- R105: the accumulator stays in 0..255 and an addition gives at most 510; a sum of exactly 255 is kept, its complement
being 0x00; the checksum is 0xFF exactly when the seed and all data are 0; the checksum of no data; the accumulator keeps
the total modulo 255 and is 0 only when the total is 0; the order of the data does not matter. -/
def Obligations.ChecksumIsEndAroundSum : Prop :=
  ∀ (v : Version) (pid : Byte) (id : FrameId) (data : List Byte),
    checksumAcc v pid id data ≤ 255 ∧
    (∀ b : Byte, checksumAcc v pid id data + b.toNat ≤ 510 ∧
      (checksumAcc v pid id data + b.toNat = 255 →
        checksumAcc v pid id (data ++ [b]) = 255 ∧ checksum v pid id (data ++ [b]) = 0x00#8)) ∧
    (checksum v pid id data = 0xFF#8 ↔ checksumAcc v pid id [] = 0 ∧ ∀ b ∈ data, b = 0#8) ∧
    checksum v pid id [] = (if v = .v1 ∨ id = 0x3C#6 ∨ id = 0x3D#6 then 0xFF#8 else ~~~pid) ∧
    checksumAcc v pid id data % 255 = (checksumAcc v pid id [] + (data.map BitVec.toNat).sum) % 255 ∧
    (checksumAcc v pid id data = 0 ↔ checksumAcc v pid id [] + (data.map BitVec.toNat).sum = 0) ∧
    ∀ data' : List Byte, data.Perm data' → checksum v pid id data = checksum v pid id data'

/-! ### Whole frames on the bus -/

/-- The source's round-trip property (R135, R91): for every registered master request and all data, the frame BREAK, SYNC,
PID, data, checksum, each signalled and then processed, gives exactly one MR_CALL with the data and no error bit, and LF
holds the frame. -/
def Obligations.MasterRequestRoundTrip : Prop :=
  ∀ (P : Params) (s : State) (x : Byte) (data : List Byte) (later : List Word) (e : Slot),
    s.state = 0x02#8 ∨ s.state = 0x80#8 → s.rxq = [] → P.rxDepth ≠ some 0 →
    slotAt s (x.setWidth 6) = e → e.present = true → e.kind = .mr → e.len.toNat = data.length → data.length ≤ 8 →
    s.ops = (linMreq P.version x data).map encode ++ later →
    ∃ t, runOn P (2 * data.length + 8) s = .next t ∧ t.ops = later ∧ t.state = 0x80#8 ∧ t.err = s.err ∧
      t.events = s.events ++ [.mrCall e.handle (x.setWidth 6) e.len data] ∧
      t.lf = { kind := .mr, id := x.setWidth 6, len := e.len, data := padData data } ∧
      t.tx = s.tx ∧ t.txen = false ∧ t.rxq = [] ∧ t.brk = false ∧ t.table = s.table

/-- The source's slave-response scenario for every registered response (R131, R137 to R141, R91): the header is processed
and the n+1 bytes sent are echoed unchanged; then exactly one SR_CALL has been emitted, exactly those bytes sent, TXEN is
down, no error bit is set and LF holds the frame. -/
def Obligations.SlaveResponseRoundTrip : Prop :=
  ∀ (P : Params) (s : State) (x : Byte) (data : List Byte) (c : Byte) (later : List Word) (e : Slot),
    s.state = 0x02#8 ∨ s.state = 0x80#8 → s.rxq = [] → P.rxDepth ≠ some 0 →
    slotAt s (x.setWidth 6) = e → e.present = true → e.kind = .sr → e.len.toNat ≤ 8 →
    data = respondBytes P e.handle (x.setWidth 6) e.len.toNat →
    c = checksum P.version (calcPID x) (x.setWidth 6) data →
    s.ops = (linHdr x ++ linData (data ++ [c])).map encode ++ later →
    ∃ t, runOn P (2 * e.len.toNat + 8) s = .next t ∧ t.ops = later ∧ t.state = 0x80#8 ∧ t.err = s.err ∧
      t.events = s.events ++ [.srCall e.handle (x.setWidth 6) e.len] ∧ t.tx = s.tx ++ (data ++ [c]) ∧
      t.lf = { kind := .sr, id := x.setWidth 6, len := e.len, data := padData data } ∧
      t.txen = false ∧ t.rxq = [] ∧ t.brk = false ∧ t.table = s.table
end

