-- ==== Sys2Proof/Laws/Algorithms.lean ====
section
/-! SUPPORT. The protected ID and the checksum accumulator. -/

namespace Sys2Proof.Machine

theorem calcPID_idOf : ∀ x : Byte, idOf (calcPID x) = idOf x := by decide

theorem pidValid_calcPID : ∀ x : Byte, pidValid (calcPID x) = true := by decide

theorem pidValid_eq : ∀ b : Byte, pidValid b = true → b = calcPID ((idOf b).setWidth 8) := by decide

/-- The accumulator stays in 0..255 (R105). -/
theorem checksumAdd_le (acc : Nat) (b : Byte) (h : acc ≤ 255) : checksumAdd acc b ≤ 255 := by
  have hb := b.isLt
  unfold checksumAdd
  split <;> omega

/-- The fold keeps the sum modulo 255 (R105). -/
theorem checksumAdd_mod (acc : Nat) (b : Byte) : checksumAdd acc b % 255 = (acc + b.toNat) % 255 := by
  unfold checksumAdd
  split <;> omega

/-- The accumulator is 0 only when nothing was added (R105). -/
theorem checksumAdd_eq_zero (acc : Nat) (b : Byte) : checksumAdd acc b = 0 ↔ acc = 0 ∧ b = 0#8 := by
  have hb := b.isLt
  have : b = 0#8 ↔ b.toNat = 0 := ⟨fun h => by simp [h], fun h => BitVec.eq_of_toNat_eq (by simpa using h)⟩
  rw [this]
  unfold checksumAdd
  split <;> omega

end Sys2Proof.Machine
end

