-- ==== Sys2Proof/Laws/Codes.lean ====
section
/-! SUPPORT. The STATE codes are one-hot and decode back to their phases (R78). -/

namespace Sys2Proof.Machine

@[simp] theorem ofCode_code (ph : Phase) : Phase.ofCode ph.code = some ph := by cases ph <;> rfl

theorem code_injective (a b : Phase) (h : a.code = b.code) : a = b := by
  have := congrArg Phase.ofCode h
  simpa using this

@[simp] theorem code_eq_iff (a b : Phase) : a.code = b.code ↔ a = b :=
  ⟨code_injective a b, fun h => h ▸ rfl⟩

theorem ofCode_eq_some (c : Byte) (ph : Phase) : Phase.ofCode c = some ph ↔ c = ph.code := by
  constructor
  · intro h
    have := List.find?_some h
    exact (beq_iff_eq.mp this).symm
  · rintro rfl
    exact ofCode_code ph

theorem ofCode_eq_none (c : Byte) : Phase.ofCode c = none ↔ ∀ ph : Phase, c ≠ ph.code := by
  cases h : Phase.ofCode c with
  | none => simpa using fun ph hc => by rw [hc, ofCode_code] at h; cases h
  | some ph => simpa using ⟨ph, (ofCode_eq_some c ph).mp h⟩

@[simp] theorem legal_code (ph : Phase) : legal ph.code = true := by simp [legal]

theorem legal_iff (c : Byte) : legal c = true ↔ ∃ ph : Phase, c = ph.code := by
  simp [legal, Option.isSome_iff_exists, ofCode_eq_some]

theorem legal_eq_false (c : Byte) : legal c = false ↔ Phase.ofCode c = none := by
  simp [legal]

@[simp] theorem inPhase_goto (a b : Phase) (s : State) : inPhase a (goto b s) ↔ b = a := by
  simp only [inPhase, goto]
  exact code_eq_iff b a

end Sys2Proof.Machine
end

