-- ==== Sys2Proof/Laws/Decode.lean ====
section
/-! SUPPORT. The fields of an encoded word are the operands it was encoded from, and its must-be-zero bits are zero
(R71 to R75). -/

namespace Sys2Proof

variable (op : BitVec 4) (idraw len h b : Byte) (p : Bool) (d : BitVec 28) (baud : BitVec 24)

theorem opcodeOf_encodeO : opcodeOf (encodeO op) = op := by
  ext k hk
  interval_cases k <;> simp [opcodeOf, encodeO, placed]

theorem opcodeOf_encodeB : opcodeOf (encodeB op b) = op := by
  ext k hk
  interval_cases k <;> simp [opcodeOf, encodeB, placed, BitVec.getLsbD_of_ge]

theorem opcodeOf_encodeT : opcodeOf (encodeT op d) = op := by
  ext k hk
  interval_cases k <;> simp [opcodeOf, encodeT, placed, BitVec.getLsbD_of_ge]

theorem opcodeOf_encodeU : opcodeOf (encodeU op baud) = op := by
  ext k hk
  interval_cases k <;> simp [opcodeOf, encodeU, placed, BitVec.getLsbD_of_ge]

theorem opcodeOf_encodeR : opcodeOf (encodeR op idraw len p h) = op := by
  ext k hk
  interval_cases k <;> simp [opcodeOf, encodeR, placed, BitVec.getLsbD_of_ge]

theorem fieldB_encodeB : fieldB (encodeB op b) = b := by
  ext k hk
  interval_cases k <;> simp [fieldB, encodeB, placed]

theorem fieldD_encodeT : fieldD (encodeT op d) = d := by
  ext k hk
  interval_cases k <;> simp [fieldD, encodeT, placed]

theorem fieldBaud_encodeU : fieldBaud (encodeU op baud) = baud := by
  ext k hk
  interval_cases k <;> simp [fieldBaud, encodeU, placed]

theorem fieldIdraw_encodeR : fieldIdraw (encodeR op idraw len p h) = idraw := by
  ext k hk
  interval_cases k <;> simp [fieldIdraw, encodeR, placed]

theorem fieldLen_encodeR : fieldLen (encodeR op idraw len p h) = len := by
  ext k hk
  interval_cases k <;> simp [fieldLen, encodeR, placed, BitVec.getLsbD_of_ge]

theorem fieldH_encodeR : fieldH (encodeR op idraw len p h) = h := by
  ext k hk
  interval_cases k <;> simp [fieldH, encodeR, placed, BitVec.getLsbD_of_ge]

theorem fieldP_encodeR : fieldP (encodeR op idraw len p h) = p := by
  simp [fieldP, encodeR, placed, BitVec.getLsbD_of_ge]

/-! ### The masked bits of a word are its row's pattern (R76) -/

theorem encodeB_masked : encodeB op b &&& 0xFFFFFF00#32 = placed op 28 := by
  ext k hk
  interval_cases k <;> simp [encodeB, placed, BitVec.getLsbD_of_ge]

theorem encodeT_masked : encodeT op d &&& 0xF0000000#32 = placed op 28 := by
  ext k hk
  interval_cases k <;> simp [encodeT, placed, BitVec.getLsbD_of_ge]

theorem encodeU_masked : encodeU op baud &&& 0xFF000000#32 = placed op 28 := by
  ext k hk
  interval_cases k <;> simp [encodeU, placed, BitVec.getLsbD_of_ge]

theorem encodeR_masked : encodeR op idraw len p h &&& 0xF0070000#32 = placed op 28 := by
  ext k hk
  interval_cases k <;> simp [encodeR, placed, BitVec.getLsbD_of_ge]

end Sys2Proof
end

