-- ==== Sys2Proof/Laws/Operands.lean ====
section
/-! SUPPORT. The indexed stores FC.buf and LF.data, and the bytes of RESPOND. -/

namespace Sys2Proof.Machine

@[simp] theorem respondBytes_length (P : Params) (h : Byte) (id : FrameId) (n : Nat) :
    (respondBytes P h id n).length = n := by simp [respondBytes]

/-- Nine bytes or fewer, filled from index 0, are the first bytes of the buffer. -/
theorem bufFill_take (buf : Vector Byte 9) (xs : List Byte) (hx : xs.length ≤ 9) :
    (bufFill buf xs).toList.take xs.length = xs := by
  apply List.ext_getElem
  · simp; omega
  · intro k h1 h2
    have hk : k < 9 := by omega
    simp only [List.getElem_take, bufFill]
    interval_cases k <;> simp [h2]

/-- The byte at an index below the filled length. -/
theorem bufAt_bufFill (buf : Vector Byte 9) (xs : List Byte) (k : Nat) (hk : k < xs.length) (hx : xs.length ≤ 9) :
    bufAt (bufFill buf xs) k = xs.getD k 0#8 := by
  have h9 : k < 9 := by omega
  unfold bufAt bufFill
  interval_cases k <;> simp [hk]

/-- Writing one byte extends the filled part by it. -/
theorem bufSet_take (buf : Vector Byte 9) (k : Nat) (b : Byte) (hk : k < 9) :
    (bufSet buf k b).toList.take (k + 1) = buf.toList.take k ++ [b] := by
  rw [List.take_add_one]
  simp [bufSet, Vector.toList_setIfInBounds, List.take_set_of_le, hk]

theorem dataOf_length (fc : FrameContext) (h : fc.len.toNat ≤ 8) : (dataOf fc).length = fc.len.toNat := by
  simp [dataOf]; omega

/-- The snapshot's data: the data bytes, then 0x00 up to eight (R28). -/
theorem padData_toList (data : List Byte) (h : data.length ≤ 8) :
    (padData data).toList = data ++ List.replicate (8 - data.length) 0x00#8 := by
  apply List.ext_getElem
  · simp; omega
  · intro k h1 h2
    have hk : k < 8 := by simpa using h1
    rw [List.getElem_append]
    unfold padData
    split
    · next hl => interval_cases k <;> simp [hl]
    · next hl =>
      have hn : data[k]? = none := List.getElem?_eq_none (by omega)
      interval_cases k <;> simp [hn]

end Sys2Proof.Machine
end

