-- ==== Sys2Proof/Laws/State.lean ====
section
/-! SUPPORT. What each named operation of Machine/Ops.lean and Machine/Flags.lean leaves in each element of the state:
one lemma per field per operation, so that no later proof unfolds a record update. -/

namespace Sys2Proof.Machine

variable (s : State)

/-! ### raise -/

@[simp] theorem raise_state (k : ErrorKind) : (raise k s).state = s.state := rfl
@[simp] theorem raise_err (k : ErrorKind) : (raise k s).err = s.err ||| k.mask := rfl
@[simp] theorem raise_fc (k : ErrorKind) : (raise k s).fc = s.fc := rfl
@[simp] theorem raise_brk (k : ErrorKind) : (raise k s).brk = s.brk := rfl
@[simp] theorem raise_table (k : ErrorKind) : (raise k s).table = s.table := rfl
@[simp] theorem raise_lf (k : ErrorKind) : (raise k s).lf = s.lf := rfl
@[simp] theorem raise_now (k : ErrorKind) : (raise k s).now = s.now := rfl
@[simp] theorem raise_rxq (k : ErrorKind) : (raise k s).rxq = s.rxq := rfl
@[simp] theorem raise_txen (k : ErrorKind) : (raise k s).txen = s.txen := rfl
@[simp] theorem raise_tx (k : ErrorKind) : (raise k s).tx = s.tx := rfl
@[simp] theorem raise_events (k : ErrorKind) : (raise k s).events = s.events := rfl
@[simp] theorem raise_reads (k : ErrorKind) : (raise k s).reads = s.reads := rfl
@[simp] theorem raise_faults (k : ErrorKind) : (raise k s).faults = s.faults := rfl
@[simp] theorem raise_refused (k : ErrorKind) : (raise k s).refused = s.refused := rfl
@[simp] theorem raise_ops (k : ErrorKind) : (raise k s).ops = s.ops := rfl
@[simp] theorem raise_rxOverflows (k : ErrorKind) : (raise k s).rxOverflows = s.rxOverflows := rfl

/-! ### clearErr -/

@[simp] theorem clearErr_state : (clearErr s).state = s.state := rfl
@[simp] theorem clearErr_err : (clearErr s).err = 0x00#8 := rfl
@[simp] theorem clearErr_fc : (clearErr s).fc = s.fc := rfl
@[simp] theorem clearErr_brk : (clearErr s).brk = s.brk := rfl
@[simp] theorem clearErr_table : (clearErr s).table = s.table := rfl
@[simp] theorem clearErr_lf : (clearErr s).lf = s.lf := rfl
@[simp] theorem clearErr_now : (clearErr s).now = s.now := rfl
@[simp] theorem clearErr_rxq : (clearErr s).rxq = s.rxq := rfl
@[simp] theorem clearErr_txen : (clearErr s).txen = s.txen := rfl
@[simp] theorem clearErr_tx : (clearErr s).tx = s.tx := rfl
@[simp] theorem clearErr_events : (clearErr s).events = s.events := rfl
@[simp] theorem clearErr_reads : (clearErr s).reads = s.reads := rfl
@[simp] theorem clearErr_faults : (clearErr s).faults = s.faults := rfl
@[simp] theorem clearErr_refused : (clearErr s).refused = s.refused := rfl
@[simp] theorem clearErr_ops : (clearErr s).ops = s.ops := rfl
@[simp] theorem clearErr_rxOverflows : (clearErr s).rxOverflows = s.rxOverflows := rfl

/-! ### goto -/

@[simp] theorem goto_state (ph : Phase) : (goto ph s).state = ph.code := rfl
@[simp] theorem goto_err (ph : Phase) : (goto ph s).err = s.err := rfl
@[simp] theorem goto_fc (ph : Phase) : (goto ph s).fc = s.fc := rfl
@[simp] theorem goto_brk (ph : Phase) : (goto ph s).brk = s.brk := rfl
@[simp] theorem goto_table (ph : Phase) : (goto ph s).table = s.table := rfl
@[simp] theorem goto_lf (ph : Phase) : (goto ph s).lf = s.lf := rfl
@[simp] theorem goto_now (ph : Phase) : (goto ph s).now = s.now := rfl
@[simp] theorem goto_rxq (ph : Phase) : (goto ph s).rxq = s.rxq := rfl
@[simp] theorem goto_txen (ph : Phase) : (goto ph s).txen = s.txen := rfl
@[simp] theorem goto_tx (ph : Phase) : (goto ph s).tx = s.tx := rfl
@[simp] theorem goto_events (ph : Phase) : (goto ph s).events = s.events := rfl
@[simp] theorem goto_reads (ph : Phase) : (goto ph s).reads = s.reads := rfl
@[simp] theorem goto_faults (ph : Phase) : (goto ph s).faults = s.faults := rfl
@[simp] theorem goto_refused (ph : Phase) : (goto ph s).refused = s.refused := rfl
@[simp] theorem goto_ops (ph : Phase) : (goto ph s).ops = s.ops := rfl
@[simp] theorem goto_rxOverflows (ph : Phase) : (goto ph s).rxOverflows = s.rxOverflows := rfl

/-! ### setFC -/

@[simp] theorem setFC_state (fc : FrameContext) : (setFC fc s).state = s.state := rfl
@[simp] theorem setFC_err (fc : FrameContext) : (setFC fc s).err = s.err := rfl
@[simp] theorem setFC_fc (fc : FrameContext) : (setFC fc s).fc = fc := rfl
@[simp] theorem setFC_brk (fc : FrameContext) : (setFC fc s).brk = s.brk := rfl
@[simp] theorem setFC_table (fc : FrameContext) : (setFC fc s).table = s.table := rfl
@[simp] theorem setFC_lf (fc : FrameContext) : (setFC fc s).lf = s.lf := rfl
@[simp] theorem setFC_now (fc : FrameContext) : (setFC fc s).now = s.now := rfl
@[simp] theorem setFC_rxq (fc : FrameContext) : (setFC fc s).rxq = s.rxq := rfl
@[simp] theorem setFC_txen (fc : FrameContext) : (setFC fc s).txen = s.txen := rfl
@[simp] theorem setFC_tx (fc : FrameContext) : (setFC fc s).tx = s.tx := rfl
@[simp] theorem setFC_events (fc : FrameContext) : (setFC fc s).events = s.events := rfl
@[simp] theorem setFC_reads (fc : FrameContext) : (setFC fc s).reads = s.reads := rfl
@[simp] theorem setFC_faults (fc : FrameContext) : (setFC fc s).faults = s.faults := rfl
@[simp] theorem setFC_refused (fc : FrameContext) : (setFC fc s).refused = s.refused := rfl
@[simp] theorem setFC_ops (fc : FrameContext) : (setFC fc s).ops = s.ops := rfl
@[simp] theorem setFC_rxOverflows (fc : FrameContext) : (setFC fc s).rxOverflows = s.rxOverflows := rfl

/-! ### clearFC -/

@[simp] theorem clearFC_state : (clearFC s).state = s.state := rfl
@[simp] theorem clearFC_err : (clearFC s).err = s.err := rfl
@[simp] theorem clearFC_fc : (clearFC s).fc = FrameContext.zero := rfl
@[simp] theorem clearFC_brk : (clearFC s).brk = s.brk := rfl
@[simp] theorem clearFC_table : (clearFC s).table = s.table := rfl
@[simp] theorem clearFC_lf : (clearFC s).lf = s.lf := rfl
@[simp] theorem clearFC_now : (clearFC s).now = s.now := rfl
@[simp] theorem clearFC_rxq : (clearFC s).rxq = s.rxq := rfl
@[simp] theorem clearFC_txen : (clearFC s).txen = s.txen := rfl
@[simp] theorem clearFC_tx : (clearFC s).tx = s.tx := rfl
@[simp] theorem clearFC_events : (clearFC s).events = s.events := rfl
@[simp] theorem clearFC_reads : (clearFC s).reads = s.reads := rfl
@[simp] theorem clearFC_faults : (clearFC s).faults = s.faults := rfl
@[simp] theorem clearFC_refused : (clearFC s).refused = s.refused := rfl
@[simp] theorem clearFC_ops : (clearFC s).ops = s.ops := rfl
@[simp] theorem clearFC_rxOverflows : (clearFC s).rxOverflows = s.rxOverflows := rfl

/-! ### stamp -/

@[simp] theorem stamp_state : (stamp s).state = s.state := rfl
@[simp] theorem stamp_err : (stamp s).err = s.err := rfl
@[simp] theorem stamp_fc : (stamp s).fc = { s.fc with tLast := s.now } := rfl
@[simp] theorem stamp_brk : (stamp s).brk = s.brk := rfl
@[simp] theorem stamp_table : (stamp s).table = s.table := rfl
@[simp] theorem stamp_lf : (stamp s).lf = s.lf := rfl
@[simp] theorem stamp_now : (stamp s).now = s.now := rfl
@[simp] theorem stamp_rxq : (stamp s).rxq = s.rxq := rfl
@[simp] theorem stamp_txen : (stamp s).txen = s.txen := rfl
@[simp] theorem stamp_tx : (stamp s).tx = s.tx := rfl
@[simp] theorem stamp_events : (stamp s).events = s.events := rfl
@[simp] theorem stamp_reads : (stamp s).reads = s.reads := rfl
@[simp] theorem stamp_faults : (stamp s).faults = s.faults := rfl
@[simp] theorem stamp_refused : (stamp s).refused = s.refused := rfl
@[simp] theorem stamp_ops : (stamp s).ops = s.ops := rfl
@[simp] theorem stamp_rxOverflows : (stamp s).rxOverflows = s.rxOverflows := rfl

/-! ### txOff -/

@[simp] theorem txOff_state : (txOff s).state = s.state := rfl
@[simp] theorem txOff_err : (txOff s).err = s.err := rfl
@[simp] theorem txOff_fc : (txOff s).fc = s.fc := rfl
@[simp] theorem txOff_brk : (txOff s).brk = s.brk := rfl
@[simp] theorem txOff_table : (txOff s).table = s.table := rfl
@[simp] theorem txOff_lf : (txOff s).lf = s.lf := rfl
@[simp] theorem txOff_now : (txOff s).now = s.now := rfl
@[simp] theorem txOff_rxq : (txOff s).rxq = s.rxq := rfl
@[simp] theorem txOff_txen : (txOff s).txen = false := rfl
@[simp] theorem txOff_tx : (txOff s).tx = s.tx := rfl
@[simp] theorem txOff_events : (txOff s).events = s.events := rfl
@[simp] theorem txOff_reads : (txOff s).reads = s.reads := rfl
@[simp] theorem txOff_faults : (txOff s).faults = s.faults := rfl
@[simp] theorem txOff_refused : (txOff s).refused = s.refused := rfl
@[simp] theorem txOff_ops : (txOff s).ops = s.ops := rfl
@[simp] theorem txOff_rxOverflows : (txOff s).rxOverflows = s.rxOverflows := rfl

/-! ### txOn -/

@[simp] theorem txOn_state (P : Params) : (txOn P s).state = s.state := by
  unfold txOn; split <;> rfl
@[simp] theorem txOn_err (P : Params) : (txOn P s).err = s.err := by
  unfold txOn; split <;> rfl
@[simp] theorem txOn_fc (P : Params) : (txOn P s).fc = s.fc := by
  unfold txOn; split <;> rfl
@[simp] theorem txOn_brk (P : Params) : (txOn P s).brk = s.brk := by
  unfold txOn; split <;> rfl
@[simp] theorem txOn_table (P : Params) : (txOn P s).table = s.table := by
  unfold txOn; split <;> rfl
@[simp] theorem txOn_lf (P : Params) : (txOn P s).lf = s.lf := by
  unfold txOn; split <;> rfl
@[simp] theorem txOn_now (P : Params) : (txOn P s).now = s.now := by
  unfold txOn; split <;> rfl
@[simp] theorem txOn_rxq (P : Params) : (txOn P s).rxq = s.rxq := by
  unfold txOn; split <;> rfl
@[simp] theorem txOn_txen (P : Params) : (txOn P s).txen = (P.hasTxen || s.txen) := by
  unfold txOn; cases h : P.hasTxen <;> simp
@[simp] theorem txOn_tx (P : Params) : (txOn P s).tx = s.tx := by
  unfold txOn; split <;> rfl
@[simp] theorem txOn_events (P : Params) : (txOn P s).events = s.events := by
  unfold txOn; split <;> rfl
@[simp] theorem txOn_reads (P : Params) : (txOn P s).reads = s.reads := by
  unfold txOn; split <;> rfl
@[simp] theorem txOn_faults (P : Params) : (txOn P s).faults = s.faults := by
  unfold txOn; split <;> rfl
@[simp] theorem txOn_refused (P : Params) : (txOn P s).refused = s.refused := by
  unfold txOn; split <;> rfl
@[simp] theorem txOn_ops (P : Params) : (txOn P s).ops = s.ops := by
  unfold txOn; split <;> rfl
@[simp] theorem txOn_rxOverflows (P : Params) : (txOn P s).rxOverflows = s.rxOverflows := by
  unfold txOn; split <;> rfl

/-! ### setBrk -/

@[simp] theorem setBrk_state (v : Bool) : (setBrk v s).state = s.state := rfl
@[simp] theorem setBrk_err (v : Bool) : (setBrk v s).err = s.err := rfl
@[simp] theorem setBrk_fc (v : Bool) : (setBrk v s).fc = s.fc := rfl
@[simp] theorem setBrk_brk (v : Bool) : (setBrk v s).brk = v := rfl
@[simp] theorem setBrk_table (v : Bool) : (setBrk v s).table = s.table := rfl
@[simp] theorem setBrk_lf (v : Bool) : (setBrk v s).lf = s.lf := rfl
@[simp] theorem setBrk_now (v : Bool) : (setBrk v s).now = s.now := rfl
@[simp] theorem setBrk_rxq (v : Bool) : (setBrk v s).rxq = s.rxq := rfl
@[simp] theorem setBrk_txen (v : Bool) : (setBrk v s).txen = s.txen := rfl
@[simp] theorem setBrk_tx (v : Bool) : (setBrk v s).tx = s.tx := rfl
@[simp] theorem setBrk_events (v : Bool) : (setBrk v s).events = s.events := rfl
@[simp] theorem setBrk_reads (v : Bool) : (setBrk v s).reads = s.reads := rfl
@[simp] theorem setBrk_faults (v : Bool) : (setBrk v s).faults = s.faults := rfl
@[simp] theorem setBrk_refused (v : Bool) : (setBrk v s).refused = s.refused := rfl
@[simp] theorem setBrk_ops (v : Bool) : (setBrk v s).ops = s.ops := rfl
@[simp] theorem setBrk_rxOverflows (v : Bool) : (setBrk v s).rxOverflows = s.rxOverflows := rfl

/-! ### setRxq -/

@[simp] theorem setRxq_state (q : List Byte) : (setRxq q s).state = s.state := rfl
@[simp] theorem setRxq_err (q : List Byte) : (setRxq q s).err = s.err := rfl
@[simp] theorem setRxq_fc (q : List Byte) : (setRxq q s).fc = s.fc := rfl
@[simp] theorem setRxq_brk (q : List Byte) : (setRxq q s).brk = s.brk := rfl
@[simp] theorem setRxq_table (q : List Byte) : (setRxq q s).table = s.table := rfl
@[simp] theorem setRxq_lf (q : List Byte) : (setRxq q s).lf = s.lf := rfl
@[simp] theorem setRxq_now (q : List Byte) : (setRxq q s).now = s.now := rfl
@[simp] theorem setRxq_rxq (q : List Byte) : (setRxq q s).rxq = q := rfl
@[simp] theorem setRxq_txen (q : List Byte) : (setRxq q s).txen = s.txen := rfl
@[simp] theorem setRxq_tx (q : List Byte) : (setRxq q s).tx = s.tx := rfl
@[simp] theorem setRxq_events (q : List Byte) : (setRxq q s).events = s.events := rfl
@[simp] theorem setRxq_reads (q : List Byte) : (setRxq q s).reads = s.reads := rfl
@[simp] theorem setRxq_faults (q : List Byte) : (setRxq q s).faults = s.faults := rfl
@[simp] theorem setRxq_refused (q : List Byte) : (setRxq q s).refused = s.refused := rfl
@[simp] theorem setRxq_ops (q : List Byte) : (setRxq q s).ops = s.ops := rfl
@[simp] theorem setRxq_rxOverflows (q : List Byte) : (setRxq q s).rxOverflows = s.rxOverflows := rfl

/-! ### sendBytes -/

@[simp] theorem sendBytes_state (xs : List Byte) : (sendBytes xs s).state = s.state := rfl
@[simp] theorem sendBytes_err (xs : List Byte) : (sendBytes xs s).err = s.err := rfl
@[simp] theorem sendBytes_fc (xs : List Byte) : (sendBytes xs s).fc = s.fc := rfl
@[simp] theorem sendBytes_brk (xs : List Byte) : (sendBytes xs s).brk = s.brk := rfl
@[simp] theorem sendBytes_table (xs : List Byte) : (sendBytes xs s).table = s.table := rfl
@[simp] theorem sendBytes_lf (xs : List Byte) : (sendBytes xs s).lf = s.lf := rfl
@[simp] theorem sendBytes_now (xs : List Byte) : (sendBytes xs s).now = s.now := rfl
@[simp] theorem sendBytes_rxq (xs : List Byte) : (sendBytes xs s).rxq = s.rxq := rfl
@[simp] theorem sendBytes_txen (xs : List Byte) : (sendBytes xs s).txen = s.txen := rfl
@[simp] theorem sendBytes_tx (xs : List Byte) : (sendBytes xs s).tx = s.tx ++ xs := rfl
@[simp] theorem sendBytes_events (xs : List Byte) : (sendBytes xs s).events = s.events := rfl
@[simp] theorem sendBytes_reads (xs : List Byte) : (sendBytes xs s).reads = s.reads := rfl
@[simp] theorem sendBytes_faults (xs : List Byte) : (sendBytes xs s).faults = s.faults := rfl
@[simp] theorem sendBytes_refused (xs : List Byte) : (sendBytes xs s).refused = s.refused := rfl
@[simp] theorem sendBytes_ops (xs : List Byte) : (sendBytes xs s).ops = s.ops := rfl
@[simp] theorem sendBytes_rxOverflows (xs : List Byte) : (sendBytes xs s).rxOverflows = s.rxOverflows := rfl

/-! ### emit -/

@[simp] theorem emit_state (e : Event) : (emit e s).state = s.state := rfl
@[simp] theorem emit_err (e : Event) : (emit e s).err = s.err := rfl
@[simp] theorem emit_fc (e : Event) : (emit e s).fc = s.fc := rfl
@[simp] theorem emit_brk (e : Event) : (emit e s).brk = s.brk := rfl
@[simp] theorem emit_table (e : Event) : (emit e s).table = s.table := rfl
@[simp] theorem emit_lf (e : Event) : (emit e s).lf = s.lf := rfl
@[simp] theorem emit_now (e : Event) : (emit e s).now = s.now := rfl
@[simp] theorem emit_rxq (e : Event) : (emit e s).rxq = s.rxq := rfl
@[simp] theorem emit_txen (e : Event) : (emit e s).txen = s.txen := rfl
@[simp] theorem emit_tx (e : Event) : (emit e s).tx = s.tx := rfl
@[simp] theorem emit_events (e : Event) : (emit e s).events = s.events ++ [e] := rfl
@[simp] theorem emit_reads (e : Event) : (emit e s).reads = s.reads := rfl
@[simp] theorem emit_faults (e : Event) : (emit e s).faults = s.faults := rfl
@[simp] theorem emit_refused (e : Event) : (emit e s).refused = s.refused := rfl
@[simp] theorem emit_ops (e : Event) : (emit e s).ops = s.ops := rfl
@[simp] theorem emit_rxOverflows (e : Event) : (emit e s).rxOverflows = s.rxOverflows := rfl

/-! ### report -/

@[simp] theorem report_state (r : ReadResult) : (report r s).state = s.state := rfl
@[simp] theorem report_err (r : ReadResult) : (report r s).err = s.err := rfl
@[simp] theorem report_fc (r : ReadResult) : (report r s).fc = s.fc := rfl
@[simp] theorem report_brk (r : ReadResult) : (report r s).brk = s.brk := rfl
@[simp] theorem report_table (r : ReadResult) : (report r s).table = s.table := rfl
@[simp] theorem report_lf (r : ReadResult) : (report r s).lf = s.lf := rfl
@[simp] theorem report_now (r : ReadResult) : (report r s).now = s.now := rfl
@[simp] theorem report_rxq (r : ReadResult) : (report r s).rxq = s.rxq := rfl
@[simp] theorem report_txen (r : ReadResult) : (report r s).txen = s.txen := rfl
@[simp] theorem report_tx (r : ReadResult) : (report r s).tx = s.tx := rfl
@[simp] theorem report_events (r : ReadResult) : (report r s).events = s.events := rfl
@[simp] theorem report_reads (r : ReadResult) : (report r s).reads = s.reads ++ [r] := rfl
@[simp] theorem report_faults (r : ReadResult) : (report r s).faults = s.faults := rfl
@[simp] theorem report_refused (r : ReadResult) : (report r s).refused = s.refused := rfl
@[simp] theorem report_ops (r : ReadResult) : (report r s).ops = s.ops := rfl
@[simp] theorem report_rxOverflows (r : ReadResult) : (report r s).rxOverflows = s.rxOverflows := rfl

/-! ### setLF -/

@[simp] theorem setLF_state (f : LastFrame) : (setLF f s).state = s.state := rfl
@[simp] theorem setLF_err (f : LastFrame) : (setLF f s).err = s.err := rfl
@[simp] theorem setLF_fc (f : LastFrame) : (setLF f s).fc = s.fc := rfl
@[simp] theorem setLF_brk (f : LastFrame) : (setLF f s).brk = s.brk := rfl
@[simp] theorem setLF_table (f : LastFrame) : (setLF f s).table = s.table := rfl
@[simp] theorem setLF_lf (f : LastFrame) : (setLF f s).lf = f := rfl
@[simp] theorem setLF_now (f : LastFrame) : (setLF f s).now = s.now := rfl
@[simp] theorem setLF_rxq (f : LastFrame) : (setLF f s).rxq = s.rxq := rfl
@[simp] theorem setLF_txen (f : LastFrame) : (setLF f s).txen = s.txen := rfl
@[simp] theorem setLF_tx (f : LastFrame) : (setLF f s).tx = s.tx := rfl
@[simp] theorem setLF_events (f : LastFrame) : (setLF f s).events = s.events := rfl
@[simp] theorem setLF_reads (f : LastFrame) : (setLF f s).reads = s.reads := rfl
@[simp] theorem setLF_faults (f : LastFrame) : (setLF f s).faults = s.faults := rfl
@[simp] theorem setLF_refused (f : LastFrame) : (setLF f s).refused = s.refused := rfl
@[simp] theorem setLF_ops (f : LastFrame) : (setLF f s).ops = s.ops := rfl
@[simp] theorem setLF_rxOverflows (f : LastFrame) : (setLF f s).rxOverflows = s.rxOverflows := rfl

/-! ### setSlot -/

@[simp] theorem setSlot_state (i : FrameId) (e : Slot) : (setSlot i e s).state = s.state := rfl
@[simp] theorem setSlot_err (i : FrameId) (e : Slot) : (setSlot i e s).err = s.err := rfl
@[simp] theorem setSlot_fc (i : FrameId) (e : Slot) : (setSlot i e s).fc = s.fc := rfl
@[simp] theorem setSlot_brk (i : FrameId) (e : Slot) : (setSlot i e s).brk = s.brk := rfl
@[simp] theorem setSlot_table (i : FrameId) (e : Slot) : (setSlot i e s).table = s.table.set i.toNat e i.isLt := rfl
@[simp] theorem setSlot_lf (i : FrameId) (e : Slot) : (setSlot i e s).lf = s.lf := rfl
@[simp] theorem setSlot_now (i : FrameId) (e : Slot) : (setSlot i e s).now = s.now := rfl
@[simp] theorem setSlot_rxq (i : FrameId) (e : Slot) : (setSlot i e s).rxq = s.rxq := rfl
@[simp] theorem setSlot_txen (i : FrameId) (e : Slot) : (setSlot i e s).txen = s.txen := rfl
@[simp] theorem setSlot_tx (i : FrameId) (e : Slot) : (setSlot i e s).tx = s.tx := rfl
@[simp] theorem setSlot_events (i : FrameId) (e : Slot) : (setSlot i e s).events = s.events := rfl
@[simp] theorem setSlot_reads (i : FrameId) (e : Slot) : (setSlot i e s).reads = s.reads := rfl
@[simp] theorem setSlot_faults (i : FrameId) (e : Slot) : (setSlot i e s).faults = s.faults := rfl
@[simp] theorem setSlot_refused (i : FrameId) (e : Slot) : (setSlot i e s).refused = s.refused := rfl
@[simp] theorem setSlot_ops (i : FrameId) (e : Slot) : (setSlot i e s).ops = s.ops := rfl
@[simp] theorem setSlot_rxOverflows (i : FrameId) (e : Slot) : (setSlot i e s).rxOverflows = s.rxOverflows := rfl

/-! ### advance -/

@[simp] theorem advance_state (d : Time) : (advance d s).state = s.state := rfl
@[simp] theorem advance_err (d : Time) : (advance d s).err = s.err := rfl
@[simp] theorem advance_fc (d : Time) : (advance d s).fc = s.fc := rfl
@[simp] theorem advance_brk (d : Time) : (advance d s).brk = s.brk := rfl
@[simp] theorem advance_table (d : Time) : (advance d s).table = s.table := rfl
@[simp] theorem advance_lf (d : Time) : (advance d s).lf = s.lf := rfl
@[simp] theorem advance_now (d : Time) : (advance d s).now = s.now + d := rfl
@[simp] theorem advance_rxq (d : Time) : (advance d s).rxq = s.rxq := rfl
@[simp] theorem advance_txen (d : Time) : (advance d s).txen = s.txen := rfl
@[simp] theorem advance_tx (d : Time) : (advance d s).tx = s.tx := rfl
@[simp] theorem advance_events (d : Time) : (advance d s).events = s.events := rfl
@[simp] theorem advance_reads (d : Time) : (advance d s).reads = s.reads := rfl
@[simp] theorem advance_faults (d : Time) : (advance d s).faults = s.faults := rfl
@[simp] theorem advance_refused (d : Time) : (advance d s).refused = s.refused := rfl
@[simp] theorem advance_ops (d : Time) : (advance d s).ops = s.ops := rfl
@[simp] theorem advance_rxOverflows (d : Time) : (advance d s).rxOverflows = s.rxOverflows := rfl

/-! ### markFault -/

@[simp] theorem markFault_state (m : FaultMark) : (markFault m s).state = s.state := rfl
@[simp] theorem markFault_err (m : FaultMark) : (markFault m s).err = s.err := rfl
@[simp] theorem markFault_fc (m : FaultMark) : (markFault m s).fc = s.fc := rfl
@[simp] theorem markFault_brk (m : FaultMark) : (markFault m s).brk = s.brk := rfl
@[simp] theorem markFault_table (m : FaultMark) : (markFault m s).table = s.table := rfl
@[simp] theorem markFault_lf (m : FaultMark) : (markFault m s).lf = s.lf := rfl
@[simp] theorem markFault_now (m : FaultMark) : (markFault m s).now = s.now := rfl
@[simp] theorem markFault_rxq (m : FaultMark) : (markFault m s).rxq = s.rxq := rfl
@[simp] theorem markFault_txen (m : FaultMark) : (markFault m s).txen = s.txen := rfl
@[simp] theorem markFault_tx (m : FaultMark) : (markFault m s).tx = s.tx := rfl
@[simp] theorem markFault_events (m : FaultMark) : (markFault m s).events = s.events := rfl
@[simp] theorem markFault_reads (m : FaultMark) : (markFault m s).reads = s.reads := rfl
@[simp] theorem markFault_faults (m : FaultMark) : (markFault m s).faults = s.faults ++ [m] := rfl
@[simp] theorem markFault_refused (m : FaultMark) : (markFault m s).refused = s.refused := rfl
@[simp] theorem markFault_ops (m : FaultMark) : (markFault m s).ops = s.ops := rfl
@[simp] theorem markFault_rxOverflows (m : FaultMark) : (markFault m s).rxOverflows = s.rxOverflows := rfl

/-! ### markRefused -/

@[simp] theorem markRefused_state (w : Word) : (markRefused w s).state = s.state := rfl
@[simp] theorem markRefused_err (w : Word) : (markRefused w s).err = s.err := rfl
@[simp] theorem markRefused_fc (w : Word) : (markRefused w s).fc = s.fc := rfl
@[simp] theorem markRefused_brk (w : Word) : (markRefused w s).brk = s.brk := rfl
@[simp] theorem markRefused_table (w : Word) : (markRefused w s).table = s.table := rfl
@[simp] theorem markRefused_lf (w : Word) : (markRefused w s).lf = s.lf := rfl
@[simp] theorem markRefused_now (w : Word) : (markRefused w s).now = s.now := rfl
@[simp] theorem markRefused_rxq (w : Word) : (markRefused w s).rxq = s.rxq := rfl
@[simp] theorem markRefused_txen (w : Word) : (markRefused w s).txen = s.txen := rfl
@[simp] theorem markRefused_tx (w : Word) : (markRefused w s).tx = s.tx := rfl
@[simp] theorem markRefused_events (w : Word) : (markRefused w s).events = s.events := rfl
@[simp] theorem markRefused_reads (w : Word) : (markRefused w s).reads = s.reads := rfl
@[simp] theorem markRefused_faults (w : Word) : (markRefused w s).faults = s.faults := rfl
@[simp] theorem markRefused_refused (w : Word) : (markRefused w s).refused = s.refused ++ [w] := rfl
@[simp] theorem markRefused_ops (w : Word) : (markRefused w s).ops = s.ops := rfl
@[simp] theorem markRefused_rxOverflows (w : Word) : (markRefused w s).rxOverflows = s.rxOverflows := rfl

/-! ### issue -/

@[simp] theorem issue_state (w : Word) : (issue w s).state = s.state := rfl
@[simp] theorem issue_err (w : Word) : (issue w s).err = s.err := rfl
@[simp] theorem issue_fc (w : Word) : (issue w s).fc = s.fc := rfl
@[simp] theorem issue_brk (w : Word) : (issue w s).brk = s.brk := rfl
@[simp] theorem issue_table (w : Word) : (issue w s).table = s.table := rfl
@[simp] theorem issue_lf (w : Word) : (issue w s).lf = s.lf := rfl
@[simp] theorem issue_now (w : Word) : (issue w s).now = s.now := rfl
@[simp] theorem issue_rxq (w : Word) : (issue w s).rxq = s.rxq := rfl
@[simp] theorem issue_txen (w : Word) : (issue w s).txen = s.txen := rfl
@[simp] theorem issue_tx (w : Word) : (issue w s).tx = s.tx := rfl
@[simp] theorem issue_events (w : Word) : (issue w s).events = s.events := rfl
@[simp] theorem issue_reads (w : Word) : (issue w s).reads = s.reads := rfl
@[simp] theorem issue_faults (w : Word) : (issue w s).faults = s.faults := rfl
@[simp] theorem issue_refused (w : Word) : (issue w s).refused = s.refused := rfl
@[simp] theorem issue_ops (w : Word) : (issue w s).ops = w :: s.ops := rfl
@[simp] theorem issue_rxOverflows (w : Word) : (issue w s).rxOverflows = s.rxOverflows := rfl

/-! ### endFrame -/

@[simp] theorem endFrame_state (ph : Phase) : (endFrame ph s).state = ph.code := rfl
@[simp] theorem endFrame_err (ph : Phase) : (endFrame ph s).err = s.err := rfl
@[simp] theorem endFrame_fc (ph : Phase) : (endFrame ph s).fc = FrameContext.zero := rfl
@[simp] theorem endFrame_brk (ph : Phase) : (endFrame ph s).brk = s.brk := rfl
@[simp] theorem endFrame_table (ph : Phase) : (endFrame ph s).table = s.table := rfl
@[simp] theorem endFrame_lf (ph : Phase) : (endFrame ph s).lf = s.lf := rfl
@[simp] theorem endFrame_now (ph : Phase) : (endFrame ph s).now = s.now := rfl
@[simp] theorem endFrame_rxq (ph : Phase) : (endFrame ph s).rxq = s.rxq := rfl
@[simp] theorem endFrame_txen (ph : Phase) : (endFrame ph s).txen = false := rfl
@[simp] theorem endFrame_tx (ph : Phase) : (endFrame ph s).tx = s.tx := rfl
@[simp] theorem endFrame_events (ph : Phase) : (endFrame ph s).events = s.events := rfl
@[simp] theorem endFrame_reads (ph : Phase) : (endFrame ph s).reads = s.reads := rfl
@[simp] theorem endFrame_faults (ph : Phase) : (endFrame ph s).faults = s.faults := rfl
@[simp] theorem endFrame_refused (ph : Phase) : (endFrame ph s).refused = s.refused := rfl
@[simp] theorem endFrame_ops (ph : Phase) : (endFrame ph s).ops = s.ops := rfl
@[simp] theorem endFrame_rxOverflows (ph : Phase) : (endFrame ph s).rxOverflows = s.rxOverflows := rfl

/-! ### errorEntry -/

@[simp] theorem errorEntry_state (k : ErrorKind) : (errorEntry k s).state = 0x80#8 := rfl
@[simp] theorem errorEntry_err (k : ErrorKind) : (errorEntry k s).err = s.err ||| k.mask := rfl
@[simp] theorem errorEntry_fc (k : ErrorKind) : (errorEntry k s).fc = FrameContext.zero := rfl
@[simp] theorem errorEntry_brk (k : ErrorKind) : (errorEntry k s).brk = s.brk := rfl
@[simp] theorem errorEntry_table (k : ErrorKind) : (errorEntry k s).table = s.table := rfl
@[simp] theorem errorEntry_lf (k : ErrorKind) : (errorEntry k s).lf = s.lf := rfl
@[simp] theorem errorEntry_now (k : ErrorKind) : (errorEntry k s).now = s.now := rfl
@[simp] theorem errorEntry_rxq (k : ErrorKind) : (errorEntry k s).rxq = s.rxq := rfl
@[simp] theorem errorEntry_txen (k : ErrorKind) : (errorEntry k s).txen = false := rfl
@[simp] theorem errorEntry_tx (k : ErrorKind) : (errorEntry k s).tx = s.tx := rfl
@[simp] theorem errorEntry_events (k : ErrorKind) : (errorEntry k s).events = s.events := rfl
@[simp] theorem errorEntry_reads (k : ErrorKind) : (errorEntry k s).reads = s.reads := rfl
@[simp] theorem errorEntry_faults (k : ErrorKind) : (errorEntry k s).faults = s.faults := rfl
@[simp] theorem errorEntry_refused (k : ErrorKind) : (errorEntry k s).refused = s.refused := rfl
@[simp] theorem errorEntry_ops (k : ErrorKind) : (errorEntry k s).ops = s.ops := rfl
@[simp] theorem errorEntry_rxOverflows (k : ErrorKind) : (errorEntry k s).rxOverflows = s.rxOverflows := rfl

/-! ### breakStart -/

@[simp] theorem breakStart_state : (breakStart s).state = 0x04#8 := rfl
@[simp] theorem breakStart_err : (breakStart s).err = s.err := rfl
@[simp] theorem breakStart_fc : (breakStart s).fc = { FrameContext.zero with tLast := s.now } := rfl
@[simp] theorem breakStart_brk : (breakStart s).brk = false := rfl
@[simp] theorem breakStart_table : (breakStart s).table = s.table := rfl
@[simp] theorem breakStart_lf : (breakStart s).lf = s.lf := rfl
@[simp] theorem breakStart_now : (breakStart s).now = s.now := rfl
@[simp] theorem breakStart_rxq : (breakStart s).rxq = s.rxq := rfl
@[simp] theorem breakStart_txen : (breakStart s).txen = false := rfl
@[simp] theorem breakStart_tx : (breakStart s).tx = s.tx := rfl
@[simp] theorem breakStart_events : (breakStart s).events = s.events := rfl
@[simp] theorem breakStart_reads : (breakStart s).reads = s.reads := rfl
@[simp] theorem breakStart_faults : (breakStart s).faults = s.faults := rfl
@[simp] theorem breakStart_refused : (breakStart s).refused = s.refused := rfl
@[simp] theorem breakStart_ops : (breakStart s).ops = s.ops := rfl
@[simp] theorem breakStart_rxOverflows : (breakStart s).rxOverflows = s.rxOverflows := rfl

end Sys2Proof.Machine
end

