-- ==== Sys2Proof/Laws/Ops.lean ====
section
/-! SUPPORT. One lemma per shared operation that says everything it can do. -/

namespace Sys2Proof.Machine

/-- Reading a slot after a registration's write. -/
theorem slotAt_setSlot (i j : FrameId) (e : Slot) (s : State) :
    slotAt (setSlot i e s) j = if j = i then e else slotAt s j := by
  unfold slotAt setSlot
  by_cases h : j = i
  · subst h; simp
  · have : i.toNat ≠ j.toNat := fun hn => h (BitVec.eq_of_toNat_eq hn.symm)
    simp [h, this]

/-- Error entry as one update (R222). -/
theorem errorEntry_eq (k : ErrorKind) (s : State) :
    errorEntry k s =
      { s with state := 0x80#8, err := s.err ||| k.mask, fc := FrameContext.zero, txen := false } := rfl

/-- The end of a frame as one update (R141). -/
theorem endFrame_eq (ph : Phase) (s : State) :
    endFrame ph s = { s with state := ph.code, fc := FrameContext.zero, txen := false } := rfl

/-- Break consumption as one update (R123). -/
theorem breakStart_eq (s : State) :
    breakStart s =
      { s with state := 0x04#8, fc := { FrameContext.zero with tLast := s.now }, brk := false, txen := false } := rfl

/-- Everything a byte's arrival can do: the byte is queued, or the queue was full and only the queue and the model's
count of such arrivals change (R203). -/
theorem receive_cases (P : Params) (b : Byte) (s : State) :
    (rxHasRoom P s = true ∧ receive P b s = { s with rxq := s.rxq ++ [b] }) ∨
    (rxHasRoom P s = false ∧
      receive P b s = { s with rxq := rxOverflowed P b s, rxOverflows := s.rxOverflows + 1 }) := by
  unfold receive
  cases h : rxHasRoom P s
  · exact .inr ⟨rfl, rfl⟩
  · exact .inl ⟨rfl, rfl⟩

/-- A receive queue within its depth stays within it (R30). -/
theorem receive_length (P : Params) (b : Byte) (s : State) (depth : Nat) (hd : P.rxDepth = some depth) :
    (receive P b s).rxq.length ≤ depth := by
  rcases receive_cases P b s with ⟨hr, he⟩ | ⟨hr, he⟩ <;> rw [he]
  · simp only [rxHasRoom, hd, decide_eq_true_eq] at hr
    simp; omega
  · simp [rxOverflowed, hd]

/-- Everything a registration can do (R170 to R172). -/
theorem register_cases (kind : FrameKind) (idraw len : Byte) (p : Bool) (h : Byte) (s : State) :
    (len.toNat ≤ 8 ∧ register kind idraw len p h s = setSlot (slotIndex idraw) (slotOf kind len p h) s) ∨
    (8 < len.toNat ∧ register kind idraw len p h s = markFault (.contractViolation len) s) := by
  unfold register lengthOk
  by_cases hl : len.toNat ≤ 8
  · exact .inl ⟨hl, by simp [hl]⟩
  · exact .inr ⟨by omega, by simp [hl]⟩

/-- A stored length within the contract is the supplied one (R172). -/
theorem slotOf_len (kind : FrameKind) (len : Byte) (p : Bool) (h : Byte) (hl : len.toNat ≤ 8) :
    (slotOf kind len p h).len.toNat = len.toNat := by
  simp [slotOf]; omega

/-- Fetching the word that was issued gives it back. -/
theorem fetch_issue (w : Word) (s : State) : fetch (issue w s) = some (w, s) := rfl

/-- Everything a fetch can do. -/
theorem fetch_cases (s : State) :
    (s.ops = [] ∧ fetch s = none) ∨ ∃ w rest, s.ops = w :: rest ∧ fetch s = some (w, { s with ops := rest }) := by
  unfold fetch
  cases h : s.ops with
  | nil => exact .inl ⟨rfl, rfl⟩
  | cons w rest => exact .inr ⟨w, rest, rfl, rfl⟩

end Sys2Proof.Machine
end

