-- ==== Sys2Proof/Laws/PerInstr.lean ====
section
/-! SUPPORT. One lemma per operation: the operation's word selects the operation's own row of the opcode map (R76). -/

/-- The word of the operation selects, by its opcode and by its masked bits, the row of the operation (R76). -/
def Sys2Proof.Laws.EncodeSelectsRow.Statement (i : Sys2Proof.Instr) : Prop :=
  ∃ r, Sys2Proof.rowOf (Sys2Proof.opcodeOf (Sys2Proof.encode i)) = some r ∧ r.op = i.op ∧
    r.selects (Sys2Proof.encode i) = true

namespace Sys2Proof.Laws.EncodeSelectsRow

open Sys2Proof

/-- The row is found by the opcode and its masked bits are the pattern. -/
theorem of_row (i : Instr) (c : BitVec 4) (r : OpRow) (hc : opcodeOf (encode i) = c) (hr : rowOf c = some r)
    (ho : r.op = i.op) (hm : encode i &&& r.mask = r.pat) : Statement i :=
  ⟨r, by rw [hc, hr], ho, by simp [OpRow.selects, hm]⟩

theorem openIf (baud : BitVec 24) : Statement (.openIf baud) :=
  of_row _ 0x1#4 ⟨.openIf, .u, 0x10000000#32, 0xFF000000#32⟩ (opcodeOf_encodeU _ _) (by decide) rfl
    ((encodeU_masked _ _).trans (by decide))

theorem closeIf : Statement (.closeIf) :=
  of_row _ 0x2#4 ⟨.closeIf, .o, 0x20000000#32, 0xFFFFFFFF#32⟩ (opcodeOf_encodeO _) (by decide) rfl
    (by decide)

theorem regMreq (idraw len : Byte) (p : Bool) (h : Byte) : Statement (.regMreq idraw len p h) :=
  of_row _ 0x3#4 ⟨.regMreq, .r, 0x30000000#32, 0xF0070000#32⟩ (opcodeOf_encodeR _ _ _ _ _) (by decide) rfl
    ((encodeR_masked _ _ _ _ _).trans (by decide))

theorem regSresp (idraw len : Byte) (p : Bool) (h : Byte) : Statement (.regSresp idraw len p h) :=
  of_row _ 0x4#4 ⟨.regSresp, .r, 0x40000000#32, 0xF0070000#32⟩ (opcodeOf_encodeR _ _ _ _ _) (by decide) rfl
    ((encodeR_masked _ _ _ _ _).trans (by decide))

theorem process : Statement (.process) :=
  of_row _ 0x5#4 ⟨.process, .o, 0x50000000#32, 0xFFFFFFFF#32⟩ (opcodeOf_encodeO _) (by decide) rfl
    (by decide)

theorem getState : Statement (.getState) :=
  of_row _ 0x6#4 ⟨.getState, .o, 0x60000000#32, 0xFFFFFFFF#32⟩ (opcodeOf_encodeO _) (by decide) rfl
    (by decide)

theorem getError : Statement (.getError) :=
  of_row _ 0x7#4 ⟨.getError, .o, 0x70000000#32, 0xFFFFFFFF#32⟩ (opcodeOf_encodeO _) (by decide) rfl
    (by decide)

theorem resetError : Statement (.resetError) :=
  of_row _ 0x8#4 ⟨.resetError, .o, 0x80000000#32, 0xFFFFFFFF#32⟩ (opcodeOf_encodeO _) (by decide) rfl
    (by decide)

theorem resetSm : Statement (.resetSm) :=
  of_row _ 0x9#4 ⟨.resetSm, .o, 0x90000000#32, 0xFFFFFFFF#32⟩ (opcodeOf_encodeO _) (by decide) rfl
    (by decide)

theorem getLastFrame : Statement (.getLastFrame) :=
  of_row _ 0xA#4 ⟨.getLastFrame, .o, 0xA0000000#32, 0xFFFFFFFF#32⟩ (opcodeOf_encodeO _) (by decide) rfl
    (by decide)

theorem breakIn : Statement (.breakIn) :=
  of_row _ 0xB#4 ⟨.breakIn, .o, 0xB0000000#32, 0xFFFFFFFF#32⟩ (opcodeOf_encodeO _) (by decide) rfl
    (by decide)

theorem rxByte (b : Byte) : Statement (.rxByte b) :=
  of_row _ 0xC#4 ⟨.rxByte, .b, 0xC0000000#32, 0xFFFFFF00#32⟩ (opcodeOf_encodeB _ _) (by decide) rfl
    ((encodeB_masked _ _).trans (by decide))

theorem tick (d : BitVec 28) : Statement (.tick d) :=
  of_row _ 0xD#4 ⟨.tick, .t, 0xD0000000#32, 0xF0000000#32⟩ (opcodeOf_encodeT _ _) (by decide) rfl
    ((encodeT_masked _ _).trans (by decide))

end Sys2Proof.Laws.EncodeSelectsRow
end

