-- ==== Sys2Proof/Laws/Process.lean ====
section
/-! SUPPORT. What one PROCESS can do (R143), said once. -/

namespace Sys2Proof.Machine

variable {P : Params} {s t : State}

/-! ### Stamping a consumed byte changes FC.t_last alone (R124) -/

@[simp] theorem stampInFrame_state (ph : Phase) (s : State) : (stampInFrame ph s).state = s.state := by
  unfold stampInFrame; split <;> rfl
@[simp] theorem stampInFrame_err (ph : Phase) (s : State) : (stampInFrame ph s).err = s.err := by
  unfold stampInFrame; split <;> rfl
@[simp] theorem stampInFrame_brk (ph : Phase) (s : State) : (stampInFrame ph s).brk = s.brk := by
  unfold stampInFrame; split <;> rfl
@[simp] theorem stampInFrame_table (ph : Phase) (s : State) : (stampInFrame ph s).table = s.table := by
  unfold stampInFrame; split <;> rfl
@[simp] theorem stampInFrame_lf (ph : Phase) (s : State) : (stampInFrame ph s).lf = s.lf := by
  unfold stampInFrame; split <;> rfl
@[simp] theorem stampInFrame_now (ph : Phase) (s : State) : (stampInFrame ph s).now = s.now := by
  unfold stampInFrame; split <;> rfl
@[simp] theorem stampInFrame_rxq (ph : Phase) (s : State) : (stampInFrame ph s).rxq = s.rxq := by
  unfold stampInFrame; split <;> rfl
@[simp] theorem stampInFrame_txen (ph : Phase) (s : State) : (stampInFrame ph s).txen = s.txen := by
  unfold stampInFrame; split <;> rfl
@[simp] theorem stampInFrame_tx (ph : Phase) (s : State) : (stampInFrame ph s).tx = s.tx := by
  unfold stampInFrame; split <;> rfl
@[simp] theorem stampInFrame_events (ph : Phase) (s : State) : (stampInFrame ph s).events = s.events := by
  unfold stampInFrame; split <;> rfl
@[simp] theorem stampInFrame_reads (ph : Phase) (s : State) : (stampInFrame ph s).reads = s.reads := by
  unfold stampInFrame; split <;> rfl
@[simp] theorem stampInFrame_faults (ph : Phase) (s : State) : (stampInFrame ph s).faults = s.faults := by
  unfold stampInFrame; split <;> rfl
@[simp] theorem stampInFrame_refused (ph : Phase) (s : State) : (stampInFrame ph s).refused = s.refused := by
  unfold stampInFrame; split <;> rfl
@[simp] theorem stampInFrame_ops (ph : Phase) (s : State) : (stampInFrame ph s).ops = s.ops := by
  unfold stampInFrame; split <;> rfl
@[simp] theorem stampInFrame_rxOverflows (ph : Phase) (s : State) : (stampInFrame ph s).rxOverflows = s.rxOverflows := by
  unfold stampInFrame; split <;> rfl

theorem stampInFrame_fc (ph : Phase) (s : State) :
    (stampInFrame ph s).fc = { s.fc with tLast := if ph.inFrame then s.now else s.fc.tLast } := by
  unfold stampInFrame; split <;> simp [stamp]

/-- The timeout's comparison in natural numbers (R122). -/
theorem timedOut_iff (P : Params) (s : State) : timedOut P s = true ↔ P.tTimeout.toNat < elapsedTicks s := by
  have h := s.fc.tLast.isLt
  simp only [timedOut, elapsed, elapsedTicks, decide_eq_true_eq, BitVec.lt_def, BitVec.toNat_sub]
  rw [show 2 ^ 32 - s.fc.tLast.toNat + s.now.toNat = s.now.toNat + 2 ^ 32 - s.fc.tLast.toNat by omega]

/-- No timeout fires: either no frame is in flight, or no more than T_TIMEOUT ticks have elapsed (R122). -/
theorem quiet_iff (P : Params) (ph : Phase) (s : State) :
    (ph.inFrame && timedOut P s) = false ↔ (ph.inFrame = true → elapsedTicks s ≤ P.tTimeout.toNat) := by
  cases ph.inFrame <;> simp [← Bool.not_eq_true, timedOut_iff]

/-- No timeout fires in the phase. -/
def quiet (P : Params) (ph : Phase) (s : State) : Prop := (ph.inFrame && timedOut P s) = false

/-- Everything a PROCESS that answers a next state can do before the byte, and the byte's rule otherwise (R120). -/
theorem processStep_cases (h : processStep P s = .next t) :
    (Phase.ofCode s.state = none ∧ t = illegalStateRecovery s) ∨
    (s.state = Phase.off.code ∧ t = s) ∨
    ∃ ph : Phase, s.state = ph.code ∧ ph ≠ .off ∧
      ((ph.inFrame = true ∧ timedOut P s = true ∧ t = timeoutAbort s) ∨
       (quiet P ph s ∧ s.brk = true ∧ t = breakStart s) ∨
       (quiet P ph s ∧ s.brk = false ∧ s.rxq = [] ∧ t = s) ∨
       (quiet P ph s ∧ s.brk = false ∧ ∃ b rest, s.rxq = b :: rest ∧
          dispatchByte P ph b (stampInFrame ph (setRxq rest s)) = .next t)) := by
  unfold processStep at h
  cases hp : Phase.ofCode s.state with
  | none => rw [hp] at h; cases h; exact .inl ⟨rfl, rfl⟩
  | some ph =>
    have hs := (ofCode_eq_some _ _).mp hp
    rw [hp] at h
    simp only at h
    split at h
    · next h0 => cases h; exact .inr (.inl ⟨h0 ▸ hs, rfl⟩)
    · next h0 =>
      refine .inr (.inr ⟨ph, hs, h0, ?_⟩)
      split at h
      · next h1 =>
        cases h
        obtain ⟨ha, hb⟩ := Bool.and_eq_true_iff.mp h1
        exact .inl ⟨ha, hb, rfl⟩
      · next h1 =>
        have hq : quiet P ph s := by simpa [quiet] using h1
        split at h
        · next h2 => cases h; exact .inr (.inl ⟨hq, h2, rfl⟩)
        · next h2 =>
          have hbrk : s.brk = false := by simpa using h2
          split at h
          · next h3 => cases h; exact .inr (.inr (.inl ⟨hq, hbrk, h3, rfl⟩))
          · next b rest h3 => exact .inr (.inr (.inr ⟨hq, hbrk, b, rest, h3, h⟩))

/-- A PROCESS that reaches the byte's rule (R124). -/
theorem processStep_byte {ph : Phase} {b : Byte} {rest : List Byte} (hs : s.state = ph.code) (ho : ph ≠ .off)
    (hq : quiet P ph s) (hb : s.brk = false) (hr : s.rxq = b :: rest) :
    processStep P s = dispatchByte P ph b (stampInFrame ph (setRxq rest s)) := by
  unfold processStep
  rw [hs, ofCode_code]
  simp only [quiet] at hq
  simp [ho, hq, hb, hr]

/-- Everything a byte in WaitForPid can do (R127). -/
theorem pidByte_cases {b : Byte} (h : pidByte P b s = .next t) :
    (pidValid b = false ∧ t = errorEntry .pid s) ∨
    (pidValid b = true ∧ (slotAt s (idOf b)).present = false ∧ t = goto .waitForBreak (clearFC s)) ∨
    (pidValid b = true ∧ (slotAt s (idOf b)).present = true ∧ (slotAt s (idOf b)).kind = .mr ∧
      t = startMasterRequest (latch b (idOf b) (slotAt s (idOf b)) s)) ∨
    (pidValid b = true ∧ (slotAt s (idOf b)).present = true ∧ (slotAt s (idOf b)).kind = .sr ∧
      (slotAt s (idOf b)).len.toNat ≤ 8 ∧ t = sendResponse P (latch b (idOf b) (slotAt s (idOf b)) s)) := by
  unfold pidByte at h
  split at h
  · next hv =>
    simp only at h
    split at h
    · next hp =>
      split at h
      · next hk => cases h; exact .inr (.inr (.inl ⟨hv, hp, hk, rfl⟩))
      · next hk =>
        split at h
        · next hl => cases h; exact .inr (.inr (.inr ⟨hv, hp, hk, hl, rfl⟩))
        · cases h
    · next hp => cases h; exact .inr (.inl ⟨hv, by simpa using hp, rfl⟩)
  · next hv => cases h; exact .inl ⟨by simpa using hv, rfl⟩

/-- Everything a byte in ReceivingData can do (R133). -/
theorem dataByte_cases {b : Byte} (h : dataByte b s = .next t) :
    s.fc.idx.toNat ≤ 8 ∧
    ((s.fc.idx + 1#4 = s.fc.len ∧ t = goto .waitForChecksum
        (setFC { s.fc with buf := bufSet s.fc.buf s.fc.idx.toNat b, idx := s.fc.idx + 1#4 } s)) ∨
     (s.fc.idx + 1#4 ≠ s.fc.len ∧ t =
        setFC { s.fc with buf := bufSet s.fc.buf s.fc.idx.toNat b, idx := s.fc.idx + 1#4 } s)) := by
  unfold dataByte at h
  split at h
  · next hi =>
    refine ⟨hi, ?_⟩
    injection h with h
    subst h
    simp only
    split
    · next he => exact .inl ⟨he, rfl⟩
    · next he => exact .inr ⟨he, rfl⟩
  · cases h

/-- Everything a byte in WaitForChecksum can do (R134). -/
theorem checksumByte_cases {b : Byte} (h : checksumByte P b s = .next t) :
    s.fc.len.toNat ≤ 8 ∧
    ((b = checksum P.version s.fc.pid s.fc.id (dataOf s.fc) ∧ t = completeMasterRequest s) ∨
     (b ≠ checksum P.version s.fc.pid s.fc.id (dataOf s.fc) ∧ t = errorEntry .chk s)) := by
  unfold checksumByte chkOK at h
  split at h
  · next hl =>
    refine ⟨hl, ?_⟩
    injection h with h
    subst h
    split
    · next hc => exact .inl ⟨by simpa using hc, rfl⟩
    · next hc => exact .inr ⟨by simpa using hc, rfl⟩
  · cases h

/-- Everything a byte in ReceivingEcho can do (R137). -/
theorem echoByte_cases {b : Byte} (h : echoByte b s = .next t) :
    s.fc.idx.toNat ≤ 8 ∧
    ((b ≠ bufAt s.fc.buf s.fc.idx.toNat ∧ t = errorEntry .echo s) ∨
     (b = bufAt s.fc.buf s.fc.idx.toNat ∧ s.fc.idx.toNat = s.fc.len.toNat ∧
        t = completeSlaveResponse (setFC { s.fc with idx := s.fc.idx + 1#4 } s)) ∨
     (b = bufAt s.fc.buf s.fc.idx.toNat ∧ s.fc.idx.toNat ≠ s.fc.len.toNat ∧
        t = setFC { s.fc with idx := s.fc.idx + 1#4 } s)) := by
  unfold echoByte at h
  split at h
  · next hi =>
    refine ⟨hi, ?_⟩
    split at h
    · next hb =>
      injection h with h
      subst h
      simp only [Nat.add_right_cancel_iff]
      split
      · next he => exact .inr (.inl ⟨hb, he, rfl⟩)
      · next he => exact .inr (.inr ⟨hb, he, rfl⟩)
    · next hb => cases h; exact .inl ⟨hb, rfl⟩
  · cases h

/-! ### Where a byte's rule stops (assumption 4) -/

/-- A byte in WaitForPid stops only at a slave response of more than 8 bytes. -/
theorem pidByte_fault {b : Byte} {f : Fault} (h : pidByte P b s = .fault f) :
    pidValid b = true ∧ (slotAt s (idOf b)).present = true ∧ (slotAt s (idOf b)).kind = .sr ∧
    8 < (slotAt s (idOf b)).len.toNat ∧ f = .frameLength (slotAt s (idOf b)).len := by
  unfold pidByte at h
  split at h
  · next hv =>
    simp only at h
    split at h
    · next hp =>
      split at h
      · cases h
      · next hk =>
        split at h
        · cases h
        · next hl => injection h with h; exact ⟨hv, hp, hk, by omega, h.symm⟩
    · cases h
  · cases h

/-- A byte in ReceivingData stops only at an index above 8. -/
theorem dataByte_fault {b : Byte} {f : Fault} (h : dataByte b s = .fault f) :
    8 < s.fc.idx.toNat ∧ f = .bufferIndex s.fc.idx := by
  unfold dataByte at h
  split at h
  · cases h
  · injection h with h; exact ⟨by omega, h.symm⟩

/-- A byte in WaitForChecksum stops only at a length above 8. -/
theorem checksumByte_fault {b : Byte} {f : Fault} (h : checksumByte P b s = .fault f) :
    8 < s.fc.len.toNat ∧ f = .frameLength s.fc.len := by
  unfold checksumByte at h
  split at h
  · cases h
  · injection h with h; exact ⟨by omega, h.symm⟩

/-- A byte in ReceivingEcho stops only at an index above 8. -/
theorem echoByte_fault {b : Byte} {f : Fault} (h : echoByte b s = .fault f) :
    8 < s.fc.idx.toNat ∧ f = .bufferIndex s.fc.idx := by
  unfold echoByte at h
  split at h
  · split at h <;> cases h
  · injection h with h; exact ⟨by omega, h.symm⟩

/-- PROCESS that does not answer a next state has reached a byte, and the byte's rule gives its answer. -/
theorem processStep_stop_cases (h : ∀ t, processStep P s ≠ .next t) :
    ∃ ph b rest, BytePending P ph b rest s ∧ ph ≠ .off ∧
      processStep P s = dispatchByte P ph b (stampInFrame ph (setRxq rest s)) := by
  cases hp : Phase.ofCode s.state with
  | none => exact absurd (by simp only [processStep, hp]) (h (illegalStateRecovery s))
  | some ph =>
    by_cases ho : ph = .off
    · exact absurd (by simp only [processStep, hp, if_pos ho]) (h s)
    by_cases ht : (ph.inFrame && timedOut P s) = true
    · exact absurd (by simp only [processStep, hp, if_neg ho, if_pos ht]) (h (timeoutAbort s))
    by_cases hb : s.brk = true
    · exact absurd (by simp only [processStep, hp, if_neg ho, if_neg ht, if_pos hb]) (h (breakStart s))
    cases hr : s.rxq with
    | nil => exact absurd (by simp only [processStep, hp, if_neg ho, if_neg ht, if_neg hb, hr]) (h s)
    | cons b rest =>
      have hpend : BytePending P ph b rest s :=
        ⟨(ofCode_eq_some _ _).mp hp, (quiet_iff P ph s).mp (by simpa using ht), by simpa using hb, hr⟩
      exact ⟨ph, b, rest, hpend, ho, processStep_byte hpend.phase ho (by simpa [quiet] using ht) hpend.noBreak hr⟩

/-! ### The same, as elimination rules -/

/-- A property of every state a PROCESS can answer: of the three that take no byte, and of what the byte's rule gives. -/
theorem processStep_elim {Q : State → Prop} (h : processStep P s = .next t) (hIllegal : Q (illegalStateRecovery s))
    (hNothing : Q s) (hTimeout : Q (timeoutAbort s)) (hBreak : s.brk = true → Q (breakStart s))
    (hByte : ∀ ph b rest, s.state = ph.code → ph ≠ .off → s.brk = false → s.rxq = b :: rest →
      dispatchByte P ph b (stampInFrame ph (setRxq rest s)) = .next t → Q t) : Q t := by
  rcases processStep_cases h with ⟨_, rfl⟩ | ⟨_, rfl⟩ | ⟨ph, hs, ho, h⟩
  · exact hIllegal
  · exact hNothing
  · rcases h with ⟨_, _, rfl⟩ | ⟨_, hb, rfl⟩ | ⟨_, _, _, rfl⟩ | ⟨_, hb, b, rest, hr, hd⟩
    · exact hTimeout
    · exact hBreak hb
    · exact hNothing
    · exact hByte ph b rest hs ho hb hr hd

/-- A property of every state a consumed byte's rule can answer, from the state the byte was taken from. -/
theorem dispatchByte_elim {Q : State → Prop} {ph : Phase} {b : Byte} (h : dispatchByte P ph b s = .next t)
    (hDropped : Q s) (hSync : ph = .waitForSync → b = 0x55#8 → Q (goto .waitForPid s))
    (hError : ∀ k : ErrorKind, k = .sync ∨ k = .pid ∨ k = .chk ∨ k = .echo → Q (errorEntry k s))
    (hUnregistered : Q (goto .waitForBreak (clearFC s)))
    (hFrame : ∀ (q : Phase) fc, q = .waitForChecksum ∨ q = .receivingData → Q (goto q (setFC fc s)))
    (hNext : ∀ fc, Q (setFC fc s)) (hResponse : ∀ fc, fc.len.toNat ≤ 8 → Q (sendResponse P (setFC fc s)))
    (hMasterRequest : ph = .waitForChecksum → b = checksum P.version s.fc.pid s.fc.id (dataOf s.fc) →
      Q (completeMasterRequest s))
    (hSlaveResponse : ph = .receivingEcho → s.fc.idx = s.fc.len → b = bufAt s.fc.buf s.fc.len.toNat →
      Q (completeSlaveResponse (setFC { s.fc with idx := s.fc.idx + 1#4 } s))) : Q t := by
  cases ph with
  | off => cases h; exact hDropped
  | waitForBreak => cases h; exact hDropped
  | done => cases h; exact hDropped
  | waitForSync =>
    cases h
    unfold syncByte
    split
    · next hb => exact hSync rfl hb
    · exact hError _ (by simp)
  | waitForPid =>
    rcases pidByte_cases h with ⟨_, rfl⟩ | ⟨_, _, rfl⟩ | ⟨_, _, _, rfl⟩ | ⟨_, _, _, hl, rfl⟩
    · exact hError _ (by simp)
    · exact hUnregistered
    · unfold startMasterRequest
      split
      · exact hFrame _ _ (.inl rfl)
      · exact hFrame _ _ (.inr rfl)
    · exact hResponse _ hl
  | receivingData =>
    obtain ⟨_, ⟨_, rfl⟩ | ⟨_, rfl⟩⟩ := dataByte_cases h
    · exact hFrame _ _ (.inl rfl)
    · exact hNext _
  | receivingEcho =>
    obtain ⟨_, ⟨_, rfl⟩ | ⟨he, hn, rfl⟩ | ⟨_, _, rfl⟩⟩ := echoByte_cases h
    · exact hError _ (by simp)
    · exact hSlaveResponse rfl (BitVec.eq_of_toNat_eq hn) (hn ▸ he)
    · exact hNext _
  | waitForChecksum =>
    obtain ⟨_, ⟨he, rfl⟩ | ⟨_, rfl⟩⟩ := checksumByte_cases h
    · exact hMasterRequest rfl he
    · exact hError _ (by simp)

/-- A byte that PROCESS reaches runs its phase's rule (R124). -/
theorem BytePending.processStep_eq {ph : Phase} {b : Byte} {rest : List Byte} (h : BytePending P ph b rest s)
    (ho : ph ≠ .off) : processStep P s = dispatchByte P ph b (stampInFrame ph (setRxq rest s)) :=
  processStep_byte h.phase ho ((quiet_iff P ph s).mpr h.noTimeout) h.noBreak h.queue

end Sys2Proof.Machine
end

