-- ==== Sys2Proof/Laws/Step.lean ====
section
/-! SUPPORT. What one step can do, and the parameters it runs with. -/

namespace Sys2Proof.Machine

/-- The machine's meanings are those of `execOn` with the machine's parameters. -/
theorem execOn_params (i : Instr) (s : State) : execOn Config.params i s = exec i s := by cases i <;> rfl

/-- A step by cases, for any execution of the decoded operation (R52, R77). -/
theorem cycle_cases (ex : Instr → State → Host.Outcome State Fault Refusal) (s : State) :
    (s.ops = [] ∧ cycle ex s = .next s) ∨
    (∃ w rest i, s.ops = w :: rest ∧ decode w = .instr i ∧ cycle ex s = ex i { s with ops := rest }) ∨
    (∃ w rest why, s.ops = w :: rest ∧ decode w = .refused why ∧
      cycle ex s = .next { s with ops := rest, refused := s.refused ++ [w] }) := by
  unfold cycle
  rcases fetch_cases s with ⟨h1, h2⟩ | ⟨w, rest, h1, h2⟩
  · exact .inl ⟨h1, by rw [h2]; rfl⟩
  · rw [h2]
    cases hd : decode w with
    | instr i => exact .inr (.inl ⟨w, rest, i, h1, hd, by simp [hd]⟩)
    | refused why => exact .inr (.inr ⟨w, rest, why, h1, hd, by simp [hd, markRefused]⟩)

end Sys2Proof.Machine
end

