-- ==== Sys2Proof/Tests/Slice0.lean ====
section
/-! SUPPORT. The model's own tests: encodings written out bit by bit, the spec's vectors (95) for single steps, and for
every obligation with hypotheses a witness that meets them. Expected values are the spec's. -/

open Sys2Proof Sys2Proof.Machine

namespace Sys2Proof.Tests

/-- The default parameters of 95, with RESPOND = [1, 2, 3, ...]. -/
def specParams : Params where
  version := .v2
  tTimeout := 1000#32
  hasTxen := true
  rxDepth := none
  respond := fun _ _ _ k => BitVec.ofNat 8 (k + 1)
  rxOverflow := fun _ q _ => q

/-- The default parameters with a timeout of 100 ticks (95 V5 to V8). -/
def shortTimeout : Params := { specParams with tTimeout := 100#32 }

/-- The default parameters with a receive buffer of two bytes. -/
def twoDeep : Params := { specParams with rxDepth := some 2 }

/-- The property of the next state; false when the machine stops. -/
def after (o : Host.Outcome State Fault Refusal) (p : State → Bool) : Bool :=
  match o with
  | .next t => p t
  | .fault _ => false
  | .refused _ => false

/-- The step stops with the fault. -/
def stops (o : Host.Outcome State Fault Refusal) (f : Fault) : Bool :=
  match o with
  | .next _ => false
  | .fault g => g == f
  | .refused _ => false

/-- A latched frame, its buffer starting with the bytes. -/
def frame (kind : FrameKind) (id : FrameId) (len idx : Nibble) (bytes : List Byte) : FrameContext where
  pid := calcPID (id.setWidth 8)
  id := id
  kind := kind
  len := len
  h := 0x09#8
  buf := bufFill (Vector.replicate 9 0#8) bytes
  idx := idx
  tLast := 0#32

/-- The reset state but for STATE, FC and RXQ. -/
def at' (ph : Phase) (fc : FrameContext) (rxq : List Byte) : State :=
  { State.reset with state := ph.code, fc := fc, rxq := rxq }

/-- The reset state with the words issued. -/
def issued (ops : List Word) : State := { State.reset with ops := ops }

/-! ### Encodings, one word per operation written out from formats R71 to R75 -/

theorem test_decode_format_u :
    decode 0b0001_0000_000000000100101100000000#32 = .instr (.openIf 19200#24) := by decide

theorem test_decode_format_o :
    decode 0b0010_0000000000000000000000000000#32 = .instr .closeIf ∧
    decode 0b0101_0000000000000000000000000000#32 = .instr .process ∧
    decode 0b0110_0000000000000000000000000000#32 = .instr .getState ∧
    decode 0b0111_0000000000000000000000000000#32 = .instr .getError ∧
    decode 0b1000_0000000000000000000000000000#32 = .instr .resetError ∧
    decode 0b1001_0000000000000000000000000000#32 = .instr .resetSm ∧
    decode 0b1010_0000000000000000000000000000#32 = .instr .getLastFrame ∧
    decode 0b1011_0000000000000000000000000000#32 = .instr .breakIn := by decide

theorem test_decode_format_r :
    decode 0b0011_00001001_1_000_00000010_00101010#32 = .instr (.regMreq 0x2A#8 2#8 true 0x09#8) ∧
    decode 0b0011_11110000_0_000_00000011_11101010#32 = .instr (.regMreq 0x2A#8 3#8 false 0x00#8) ∧
    decode 0b0100_11111111_1_000_00001000_00101010#32 = .instr (.regSresp 0x2A#8 8#8 true 0xFF#8) ∧
    decode 0b0011_00000001_1_000_11111111_00000101#32 = .instr (.regMreq 0x05#8 0xFF#8 true 0x01#8) := by decide

theorem test_decode_format_b :
    decode 0b1100_00000000000000000000_01010000#32 = .instr (.rxByte 0x50#8) := by decide

theorem test_decode_format_t :
    decode 0b1101_0000000000000000000000100000#32 = .instr (.tick 32#28) ∧
    decode 0b1101_1111111111111111111111111111#32 = .instr (.tick 0xFFFFFFF#28) := by decide

/-- The refused words of 95 section 2.1. -/
theorem test_decode_refuses :
    decode 0x00000000#32 = .refused (.reservedOpcode 0x0#4) ∧
    decode 0xE0000000#32 = .refused (.reservedOpcode 0xE#4) ∧
    decode 0xF1234567#32 = .refused (.reservedOpcode 0xF#4) ∧
    decode 0x50000001#32 = .refused (.mustBeZero .process) ∧
    decode 0x20000008#32 = .refused (.mustBeZero .closeIf) ∧
    decode 0xB8000000#32 = .refused (.mustBeZero .breakIn) ∧
    decode 0xC0000100#32 = .refused (.mustBeZero .rxByte) ∧
    decode 0x11000000#32 = .refused (.mustBeZero .openIf) ∧
    decode 0x30010000#32 = .refused (.mustBeZero .regMreq) := by decide

/-- `encode` against the words of 95 section 2.1. -/
theorem test_encode_spec_words :
    encode (.regSresp 0x20#8 0#8 true 0x05#8) = 0x40580020#32 ∧ encode (.openIf 9600#24) = 0x10002580#32 ∧
    encode (.regMreq 0x05#8 0xFF#8 true 0x01#8) = 0x3018FF05#32 ∧ encode (.rxByte 0x50#8) = 0xC0000050#32 := by decide

/-- The assembler's words of 95 section 2.1 (R90). -/
theorem test_assemble_spec_words :
    assemble (.regMreq 0x2A 2 none) = some 0x3000022A#32 ∧ assemble (.regSresp 0x10 4 (some 7)) = some 0x40780410#32 ∧
    assemble (.openLine (2 ^ 24)) = none := by decide

/-- The header of program P2 of 95 (R91). -/
theorem test_lin_hdr :
    (linHdr 0x10#8).map encode =
      [0xB0000000#32, 0x50000000#32, 0xC0000055#32, 0x50000000#32, 0xC0000050#32, 0x50000000#32] := by decide

/-! ### WellFormed refuses an ill-formed term for each check -/

theorem test_wellFormed_refuses_id_above_63 : Instr.wellFormed (.regMreq 0xEA#8 3#8 true 0x55#8) = false := by decide

theorem test_wellFormed_refuses_handle_of_null : Instr.wellFormed (.regSresp 0x2A#8 3#8 false 0x0F#8) = false := by decide

theorem test_wellFormed_accepts : Instr.wellFormed (.regMreq 0x3F#8 255#8 true 0xFF#8) = true := by decide

/-! ### The host's view of the decoder and of the step -/

theorem test_decodeTableWord :
    decodeTableWord 32 0x3098022A = some (.regMreq 0x2A#8 2#8 true 0x09#8) ∧ decodeTableWord 32 0xE0000000 = none := by
  decide

theorem test_withFetchWord_runs_next :
    after (step (State.reset.withFetchWord 32 0xB0000000)) (fun t => t.brk && t.ops == []) = true := by decide

/-! ### Algorithms: the vectors of 95 section 2.2 -/

theorem test_calcPID : calcPID 0x10#8 = 0x50#8 ∧ calcPID 0xC0#8 = 0x80#8 ∧ calcPID 0xFF#8 = 0xBF#8 := by decide

theorem test_pidValid :
    pidValid 0x50#8 = true ∧ pidValid 0x10#8 = false ∧ pidValid 0x90#8 = false ∧ pidValid 0xD0#8 = false ∧
    pidValid 0x55#8 = true ∧ pidValid 0x3F#8 = false := by decide

theorem test_checksum_modes :
    checksum .v2 0x50#8 0x10#6 [1#8, 2#8, 3#8, 4#8] = 0xA5#8 ∧ checksum .v1 0x50#8 0x10#6 [1#8, 2#8, 3#8, 4#8] = 0xF5#8 ∧
    checksum .v2 0x3C#8 0x3C#6 [1#8, 2#8, 3#8, 4#8] = 0xF5#8 ∧ checksum .v2 0x20#8 0x20#6 [] = 0xDF#8 ∧
    checksum .v1 0x20#8 0x20#6 [] = 0xFF#8 := by decide

theorem test_checksum_folds :
    checksum .v1 0x80#8 0x00#6 [0xFF#8, 0xFF#8] = 0x00#8 ∧ checksum .v1 0x80#8 0x00#6 [0x80#8, 0x80#8] = 0xFE#8 ∧
    checksum .v1 0x80#8 0x00#6 [0xFE#8, 0x01#8] = 0x00#8 ∧
    checksum .v2 0xBF#8 0x3F#6 (List.replicate 8 0xFF#8) = 0x40#8 := by decide

/-! ### One step of each operation -/

/-- 95 L1. -/
theorem test_open_clears_break_and_queue :
    after (exec (.openIf 19200#24) { State.reset with brk := true, rxq := [0x55#8, 0x50#8] })
      (fun t => t.state == 0x02#8 && !t.brk && t.rxq == []) = true := by decide

/-- 95 L3. -/
theorem test_close_drops_txen :
    after (exec .closeIf { at' .receivingEcho (frame .sr 0x10#6 4#4 0#4 [1#8]) [] with txen := true })
      (fun t => t.state == 0x01#8 && !t.txen && t.fc == FrameContext.zero) = true := by decide

/-- 95 G3: the ID is masked. -/
theorem test_reg_mreq_masks_id :
    after (exec (.regMreq 0xEA#8 3#8 true 0x55#8) State.reset)
      (fun t => slotAt t 0x2A#6 == { kind := .mr, len := 3#4, present := true, handle := 0x55#8 } &&
        slotAt t 0x2B#6 == Slot.empty) = true := by decide

/-- 95 G6: the contract fault. -/
theorem test_reg_mreq_length_nine :
    after (exec (.regMreq 0x05#8 9#8 true 1#8) State.reset)
      (fun t => t.faults == [.contractViolation 9#8] && slotAt t 0x05#6 == Slot.empty && t.err == 0x00#8) = true := by
  decide

/-- 95 G5: an MR slot overwritten by SR. -/
theorem test_reg_sresp_overwrites_kind :
    after (exec (.regSresp 0x2A#8 8#8 true 0xFF#8)
        (setSlot 0x2A#6 { kind := .mr, len := 3#4, present := false, handle := 0#8 } State.reset))
      (fun t => slotAt t 0x2A#6 == { kind := .sr, len := 8#4, present := true, handle := 0xFF#8 }) = true := by decide

/-- 95 G7 for REG_SRESP. -/
theorem test_reg_sresp_length_255 :
    after (exec (.regSresp 0x05#8 255#8 true 1#8) State.reset) (fun t => t.faults == [.contractViolation 255#8]) =
      true := by decide

/-- 95 V18: the source's slave-response scenario. -/
theorem test_process_slave_response :
    after (processStep specParams (setSlot 0x10#6 { kind := .sr, len := 4#4, present := true, handle := 7#8 }
        (at' .waitForPid FrameContext.zero [0x50#8])))
      (fun t => t.state == 0x20#8 && t.events == [.srCall 7#8 0x10#6 4#4] && t.txen && t.fc.idx == 0#4 &&
        t.tx == [0x01#8, 0x02#8, 0x03#8, 0x04#8, 0xA5#8]) = true := by decide

/-- 95 V26: a master request completes. -/
theorem test_process_master_request :
    after (processStep specParams (at' .waitForChecksum (frame .mr 0x2A#6 2#4 2#4 [0x12#8, 0x34#8]) [0x4F#8]))
      (fun t => t.state == 0x80#8 && t.err == 0x00#8 && t.events == [.mrCall 9#8 0x2A#6 2#4 [0x12#8, 0x34#8]] &&
        t.lf.packed == [0x2A#8, 2#8, 0x12#8, 0x34#8, 0#8, 0#8, 0#8, 0#8, 0#8, 0#8]) = true := by decide

/-- 95 A8: the raw register, an illegal value included. -/
theorem test_get_state_raw :
    after (exec .getState { State.reset with state := 0x00#8 }) (fun t => t.reads == [.state8 0x00#8]) = true := by decide

/-- 95 A4: reading does not clear. -/
theorem test_get_error_keeps_mask :
    after (exec .getError { State.reset with err := 0x18#8 }) (fun t => t.reads == [.error8 0x18#8] && t.err == 0x18#8) =
      true := by decide

/-- 95 A5. -/
theorem test_reset_error_keeps_state :
    after (exec .resetError { at' .waitForPid FrameContext.zero [] with err := 0x18#8 })
      (fun t => t.err == 0x00#8 && t.state == 0x08#8) = true := by decide

/-- 95 A6: BRK, RXQ and ERR are kept. -/
theorem test_reset_sm_abandons_frame :
    after (exec .resetSm { at' .receivingData (frame .mr 0x2A#6 2#4 1#4 [0x12#8]) [0x11#8] with brk := true, err := 0x08#8 })
      (fun t => t.state == 0x02#8 && t.fc == FrameContext.zero && t.brk && t.rxq == [0x11#8] && t.err == 0x08#8) =
      true := by decide

/-- 95 A3: the packed form of a FRAME result. -/
theorem test_get_frame_packed :
    after (exec .getLastFrame
        { State.reset with lf := { kind := .sr, id := 0x10#6, len := 4#4, data := padData [1#8, 2#8, 3#8, 4#8] } })
      (fun t => t.reads.map (fun r => match r with
        | .frame f => f.packed
        | .state8 _ => []
        | .error8 _ => []) == [[0x90#8, 4#8, 1#8, 2#8, 3#8, 4#8, 0#8, 0#8, 0#8, 0#8]]) = true := by decide

/-- 95 L4: a break in Off is recorded. -/
theorem test_break_in_off : after (exec .breakIn State.reset) (fun t => t.brk && t.state == 0x01#8) = true := by decide

/-- 95 L7. -/
theorem test_rx_byte_appends :
    after (execOn specParams (.rxByte 0x50#8) { State.reset with rxq := [0x55#8] })
      (fun t => t.rxq == [0x55#8, 0x50#8]) = true := by decide

/-- 95 L8 and L9. -/
theorem test_tick_wraps :
    after (exec (.tick 0x20#28) { State.reset with now := 0xFFFFFFF0#32 }) (fun t => t.now == 0x10#32) = true ∧
    after (exec (.tick 0xFFFFFFF#28) { State.reset with now := 0x10#32 }) (fun t => t.now == 0x1000000F#32) = true := by
  decide

/-- R229: a refused word. -/
theorem test_refused_word_is_marked :
    after (step (issued [0x50000001#32])) (fun t => t.refused == [0x50000001#32] && t.ops == [] && !final t) = true := by
  decide

/-! ### Witnesses: encoding -/

theorem witness_DecodeOfEncode :
    Instr.wellFormed (.regSresp 0x3F#8 255#8 true 0xFF#8) = true ∧ Instr.wellFormed (.regMreq 0x00#8 0#8 false 0#8) = true ∧
    Instr.wellFormed (.tick 0xFFFFFFF#28) = true ∧ Instr.wellFormed (.openIf 0xFFFFFF#24) = true := by decide

/-- Both branches: a registration whose dropped bits are all set, with and without a callback, and another word. -/
theorem witness_EncodeOfDecode :
    decode 0x3FF0FFFF#32 = .instr (.regMreq 0x3F#8 0xFF#8 false 0#8) ∧
    decode 0x4FF8FFFF#32 = .instr (.regSresp 0x3F#8 0xFF#8 true 0xFF#8) ∧
    decode 0xC00000FF#32 = .instr (.rxByte 0xFF#8) := by decide

theorem witness_DecodeBySelectedRow :
    (∃ r ∈ opRows, r.selects 0x30F0032A#32 = true) ∧ (∀ r ∈ opRows, r.selects 0x30010000#32 = false) := by decide

/-- One word per clause of R77, issued. -/
theorem witness_RefusedWordsExactly :
    (∃ why, decode 0xF1234567#32 = .refused why ∧ (issued [0xF1234567#32]).ops = [0xF1234567#32]) ∧
    (∃ why, decode 0x11000000#32 = .refused why) ∧ (∃ why, decode 0xB8000000#32 = .refused why) ∧
    (∃ why, decode 0x40040000#32 = .refused why) ∧ (∃ why, decode 0xC8000000#32 = .refused why) :=
  ⟨⟨_, rfl, rfl⟩, ⟨_, rfl⟩, ⟨_, rfl⟩, ⟨_, rfl⟩, ⟨_, rfl⟩⟩

/-! ### Witnesses: the step, reset and the whole machine -/

theorem witness_StepRunsDecodedWord :
    (issued [0xB0000000#32, 0x50000000#32]).ops = 0xB0000000#32 :: [0x50000000#32] ∧
    decode 0xB0000000#32 = .instr .breakIn := by decide

theorem witness_StepIdlesWithoutOperation : (issued []).ops = [] := rfl

/-- A frame in flight: one data byte received of two, and a tick issued. -/
def midFrame : State := { at' .receivingData (frame .mr 0x2A#6 2#4 1#4 [0x12#8]) [] with ops := [0xD0000005#32] }

/-- The invariants of R35 in a frame in flight. -/
theorem midFrame_inv : EngineInv Config.params midFrame where
  tableLen := by decide
  pidAndId := fun _ => by decide
  stateLegal := by decide
  dataIdx := fun _ => by decide
  checksumIdx := fun h => absurd h (by simp [inPhase]; decide)
  echoIdx := fun h => absurd h (by simp [inPhase]; decide)
  txenEcho := fun h => absurd h (by decide)
  idleContext := fun h => absurd h (by simp [noFrame, inPhase]; decide)
  frameLen := by decide

theorem witness_StepKeepsInvariants :
    EngineInv Config.params midFrame ∧ ∃ t, step midFrame = .next t ∧ t.now = 5#32 := ⟨midFrame_inv, _, rfl, by decide⟩

/-- A reachable state that is not reset: OPEN has run. -/
theorem witness_ReachableMeetsInvariants : ∃ s, Reachable s ∧ s.state = 0x02#8 :=
  ⟨_, .step _ _ (.issue 0x10004B00#32 _ .reset) rfl, by decide⟩

theorem witness_StepNeverStops : EngineInv Config.params midFrame := midFrame_inv

/-- A step from ReceivingEcho with TXEN at its level, and a reachable state. -/
theorem witness_TransmitOutputs :
    (∃ s t, TxenInv Config.params s ∧ s.state = 0x20#8 ∧ step s = .next t) ∧ Reachable State.reset ∧
    ∃ t, exec .breakIn State.reset = .next t :=
  ⟨⟨{ at' .receivingEcho (frame .sr 0x10#6 4#4 0#4 [1#8]) [] with txen := Config.params.hasTxen, ops := [0xD0000005#32] }, _,
    by simp [TxenInv, inPhase, at'], rfl, rfl⟩, .reset, _, rfl⟩

/-- A step from a state with all but the two unused bits set. -/
theorem witness_UnusedErrorBitsNeverSet :
    (∃ t, step { issued [0x90000000#32] with err := 0x3F#8 } = .next t) ∧ Reachable State.reset := ⟨⟨_, rfl⟩, .reset⟩

/-- OPEN writes STATE; GET_STATE reads it; PROCESS answers an illegal value. -/
theorem witness_StateWrittenByFourOperations :
    (∃ t, exec (.openIf 0#24) State.reset = .next t ∧ t.state ≠ State.reset.state) ∧
    (∃ t, exec .getState State.reset = .next t) ∧
    (∃ t, exec .process { State.reset with state := 0x03#8 } = .next t) :=
  ⟨⟨_, rfl, by decide⟩, ⟨_, rfl⟩, ⟨_, rfl⟩⟩

theorem witness_SequencesGrowInStepOrder :
    ∃ t, stepOn specParams { issued [0xC0000050#32] with rxq := [0x55#8] } = .next t ∧ t.rxq = [0x55#8, 0x50#8] :=
  ⟨_, rfl, by decide⟩

/-- A marked state that goes on, a step that adds a fault mark, and one that adds a refusal mark. -/
theorem witness_MarksAndFinalStates :
    (∃ t, step { issued [0xB0000000#32] with faults := [.contractViolation 9#8] } = .next t) ∧
    (∃ t, step (issued [0x30180901#32]) = .next t ∧ t.faults = [.contractViolation 9#8]) ∧
    (∃ t, step (issued [0x00000000#32]) = .next t ∧ t.refused = [0x00000000#32]) :=
  ⟨⟨_, rfl⟩, ⟨_, rfl, by decide⟩, ⟨_, rfl, by decide⟩⟩

theorem witness_TableWrittenByRegistration :
    (∃ t, exec (.regMreq 0xEA#8 2#8 true 9#8) State.reset = .next t ∧ (0x3F#6 : FrameId) ≠ (0xEA#8).setWidth 6) ∧
    (∃ t, exec (.regSresp 0x10#8 8#8 true 9#8) State.reset = .next t) ∧ (∃ t, exec .breakIn State.reset = .next t) :=
  ⟨⟨_, rfl, by decide⟩, ⟨_, rfl⟩, ⟨_, rfl⟩⟩

/-! ### Witnesses: PROCESS. Elapsed time is 0, so no timeout fires whatever T_TIMEOUT is. -/

/-- A byte pending when NOW is the time of the last one. -/
theorem pending (P : Params) (ph : Phase) (b : Byte) (rest : List Byte) (s : State) (h1 : s.state = ph.code)
    (h2 : s.now = s.fc.tLast) (h3 : s.brk = false) (h4 : s.rxq = b :: rest) : BytePending P ph b rest s :=
  ⟨h1, fun _ => by unfold elapsedTicks; rw [h2]; omega, h3, h4⟩

/-- The last echo byte of a response of eight, and one before it. -/
def lastEcho : State := at' .receivingEcho (frame .sr 0x10#6 8#4 8#4 [1#8, 2#8, 3#8, 4#8, 5#8, 6#8, 7#8, 8#8, 0x8B#8]) [0x8B#8]

/-- A master request whose checksum byte is the right one for the machine's own VERSION. -/
def lastChecksum (len : Nibble) : State :=
  let fc := frame .mr 0x2A#6 len len [1#8, 2#8, 3#8, 4#8, 5#8, 6#8, 7#8, 8#8]
  at' .waitForChecksum fc [checksum Config.params.version fc.pid fc.id (dataOf fc)]

theorem witness_ProcessDropsByte :
    BytePending Config.params .waitForBreak 0x55#8 [] (at' .waitForBreak FrameContext.zero [0x55#8]) ∧
    BytePending Config.params .done 0xA5#8 [0x01#8] (at' .done FrameContext.zero [0xA5#8, 0x01#8]) ∧
    ∃ t, exec .resetSm (at' .done FrameContext.zero []) = .next t ∧ t.state ≠ 0x80#8 :=
  ⟨pending _ _ _ _ _ rfl rfl rfl rfl, pending _ _ _ _ _ rfl rfl rfl rfl, _, rfl, by decide⟩

theorem witness_ProcessSyncByte :
    BytePending Config.params .waitForSync 0x55#8 [] (at' .waitForSync FrameContext.zero [0x55#8]) ∧
    BytePending Config.params .waitForSync 0x54#8 [] (at' .waitForSync FrameContext.zero [0x54#8]) ∧
    (at' .waitForSync FrameContext.zero [0x54#8]).txen = false :=
  ⟨pending _ _ _ _ _ rfl rfl rfl rfl, pending _ _ _ _ _ rfl rfl rfl rfl, rfl⟩

/-- Each parity bit wrong alone: 0x10 (P0), 0xD0 (P1) for ID 0x10. -/
theorem witness_ProcessPidParityError :
    BytePending Config.params .waitForPid 0x10#8 [] (at' .waitForPid FrameContext.zero [0x10#8]) ∧
    (0x10#8).getLsbD 6 ≠ ((0x10#8).getLsbD 0 ^^ (0x10#8).getLsbD 1 ^^ (0x10#8).getLsbD 2 ^^ (0x10#8).getLsbD 4) ∧
    BytePending Config.params .waitForPid 0xD0#8 [] (at' .waitForPid FrameContext.zero [0xD0#8]) ∧
    (0xD0#8).getLsbD 7 = ((0xD0#8).getLsbD 1 ^^ (0xD0#8).getLsbD 3 ^^ (0xD0#8).getLsbD 4 ^^ (0xD0#8).getLsbD 5) ∧
    (at' .waitForPid FrameContext.zero [0xD0#8]).txen = false :=
  ⟨pending _ _ _ _ _ rfl rfl rfl rfl, by decide, pending _ _ _ _ _ rfl rfl rfl rfl, by decide, rfl⟩

/-- 95 V17. -/
theorem witness_ProcessDropsUnregistered :
    BytePending Config.params .waitForPid (calcPID 0x00#8) [] (at' .waitForPid FrameContext.zero [0x80#8]) ∧
    (slotAt (at' .waitForPid FrameContext.zero [0x80#8]) ((0x00#8).setWidth 6)).present = false :=
  ⟨pending _ _ _ _ _ rfl rfl rfl rfl, by decide⟩

/-- The PID step of ID 0x2A with its slot registered. -/
def pidStep (kind : FrameKind) (len : Nibble) : State :=
  setSlot 0x2A#6 { kind := kind, len := len, present := true, handle := 9#8 } (at' .waitForPid FrameContext.zero [0x6A#8])

theorem pidStep_pending (kind : FrameKind) (len : Nibble) :
    BytePending Config.params .waitForPid (calcPID 0x2A#8) [] (pidStep kind len) := pending _ _ _ _ _ rfl rfl rfl rfl

theorem pidStep_slot (kind : FrameKind) (len : Nibble) :
    slotAt (pidStep kind len) ((0x2A#8).setWidth 6) = { kind := kind, len := len, present := true, handle := 9#8 } := by
  unfold pidStep
  rw [slotAt_setSlot]
  rfl

/-- Lengths 0 and 8, each registered. -/
theorem witness_ProcessStartsMasterRequest : ∀ len ∈ [0#4, 8#4],
    BytePending Config.params .waitForPid (calcPID 0x2A#8) [] (pidStep .mr len) ∧
    slotAt (pidStep .mr len) ((0x2A#8).setWidth 6) = { kind := .mr, len := len, present := true, handle := 9#8 } :=
  fun _ _ => ⟨pidStep_pending _ _, pidStep_slot _ _⟩

/-- Lengths 0 and 8, each registered. -/
theorem witness_ProcessSendsSlaveResponse : (∀ len ∈ [0#4, 8#4], len.toNat ≤ 8) ∧ ∀ len ∈ [0#4, 8#4],
    BytePending Config.params .waitForPid (calcPID 0x2A#8) [] (pidStep .sr len) ∧
    slotAt (pidStep .sr len) ((0x2A#8).setWidth 6) = { kind := .sr, len := len, present := true, handle := 9#8 } :=
  ⟨by decide, fun _ _ => ⟨pidStep_pending _ _, pidStep_slot _ _⟩⟩

/-- The first byte of a frame, the byte that fills it, and an index at the end of the buffer. -/
theorem witness_ProcessStoresDataByte :
    BytePending Config.params .receivingData 0x55#8 [] (at' .receivingData (frame .mr 0x2A#6 8#4 0#4 []) [0x55#8]) ∧
    BytePending Config.params .receivingData 0x34#8 [] (at' .receivingData (frame .mr 0x2A#6 8#4 7#4 []) [0x34#8]) ∧
    BytePending Config.params .receivingData 0x34#8 [] (at' .receivingData (frame .mr 0x2A#6 8#4 8#4 []) [0x34#8]) ∧
    (8#4).toNat ≤ 8 :=
  ⟨pending _ _ _ _ _ rfl rfl rfl rfl, pending _ _ _ _ _ rfl rfl rfl rfl, pending _ _ _ _ _ rfl rfl rfl rfl, by decide⟩

theorem lastChecksum_pending (len : Nibble) :
    BytePending Config.params .waitForChecksum
      (checksum Config.params.version (lastChecksum len).fc.pid (lastChecksum len).fc.id (dataOf (lastChecksum len).fc)) []
      (lastChecksum len) := pending _ _ _ _ _ rfl rfl rfl rfl

/-- The right byte at lengths 0 and 8, and a byte that differs by 1 (95 S4). -/
theorem witness_ProcessChecksMasterRequest :
    (∃ b, BytePending Config.params .waitForChecksum b [] (lastChecksum 0#4) ∧
      b = checksum Config.params.version (lastChecksum 0#4).fc.pid (lastChecksum 0#4).fc.id (dataOf (lastChecksum 0#4).fc)) ∧
    (∃ b, BytePending Config.params .waitForChecksum b [] (lastChecksum 8#4) ∧ (lastChecksum 8#4).fc.len.toNat ≤ 8 ∧
      b = checksum Config.params.version (lastChecksum 8#4).fc.pid (lastChecksum 8#4).fc.id (dataOf (lastChecksum 8#4).fc)) ∧
    (∀ c : Byte, BytePending Config.params .waitForChecksum (c + 1#8) [] { lastChecksum 8#4 with rxq := [c + 1#8] }) ∧
    (∀ c : Byte, c + 1#8 ≠ c) ∧ (lastChecksum 8#4).txen = false :=
  ⟨⟨_, lastChecksum_pending _, rfl⟩, ⟨_, lastChecksum_pending _, by decide, rfl⟩,
    fun _ => pending _ _ _ _ _ rfl rfl rfl rfl, by decide, rfl⟩

/-- A match before the end, the last match (index 8), and a mismatch. -/
theorem witness_ProcessChecksEcho :
    BytePending Config.params .receivingEcho 0x8B#8 [] lastEcho ∧ 0x8B#8 = bufAt lastEcho.fc.buf lastEcho.fc.idx.toNat ∧
    lastEcho.fc.idx = lastEcho.fc.len ∧
    BytePending Config.params .receivingEcho 0x01#8 [] (at' .receivingEcho (frame .sr 0x10#6 8#4 0#4 [1#8]) [0x01#8]) ∧
    (frame .sr 0x10#6 8#4 0#4 [1#8]).idx ≠ (frame .sr 0x10#6 8#4 0#4 [1#8]).len ∧
    0x01#8 = bufAt (frame .sr 0x10#6 8#4 0#4 [1#8]).buf 0 ∧
    BytePending Config.params .receivingEcho 0x07#8 [] { lastEcho with rxq := [0x07#8] } ∧
    0x07#8 ≠ bufAt lastEcho.fc.buf lastEcho.fc.idx.toNat :=
  ⟨pending _ _ _ _ _ rfl rfl rfl rfl, by decide, by decide, pending _ _ _ _ _ rfl rfl rfl rfl, by decide, by decide,
    pending _ _ _ _ _ rfl rfl rfl rfl, by decide⟩

theorem indexNine_process :
    exec .process (at' .receivingData (frame .mr 0x2A#6 8#4 9#4 []) [0x01#8]) = .fault (.bufferIndex 9#4) := by
  rw [show exec .process (at' .receivingData (frame .mr 0x2A#6 8#4 9#4 []) [0x01#8]) =
    processStep Config.params (at' .receivingData (frame .mr 0x2A#6 8#4 9#4 []) [0x01#8]) from rfl]
  rw [(pending Config.params .receivingData 0x01#8 [] _ rfl rfl rfl rfl).processStep_eq (by decide)]
  rfl

/-- Index and length 9, the first outside the buffer; and a stop. -/
theorem witness_ProcessStopsOutsideBuffer :
    BytePending Config.params .receivingData 0x01#8 [] (at' .receivingData (frame .mr 0x2A#6 8#4 9#4 []) [0x01#8]) ∧
    BytePending Config.params .receivingEcho 0x01#8 [] (at' .receivingEcho (frame .sr 0x2A#6 8#4 9#4 []) [0x01#8]) ∧
    BytePending Config.params .waitForChecksum 0x01#8 [] (at' .waitForChecksum (frame .mr 0x2A#6 9#4 9#4 []) [0x01#8]) ∧
    BytePending Config.params .waitForPid (calcPID 0x2A#8) [] (pidStep .sr 9#4) ∧
    slotAt (pidStep .sr 9#4) ((0x2A#8).setWidth 6) = { kind := .sr, len := 9#4, present := true, handle := 9#8 } ∧
    8 < (9#4).toNat ∧
    exec .process (at' .receivingData (frame .mr 0x2A#6 8#4 9#4 []) [0x01#8]) = .fault (.bufferIndex 9#4) :=
  ⟨pending _ _ _ _ _ rfl rfl rfl rfl, pending _ _ _ _ _ rfl rfl rfl rfl, pending _ _ _ _ _ rfl rfl rfl rfl,
    pidStep_pending _ _, pidStep_slot _ _, by decide, indexNine_process⟩

/-- 95 V1 to V3: 0x00, 0x03 and 0xFF. -/
theorem witness_ProcessRecoversIllegalState :
    ∀ c ∈ [0x00#8, 0x03#8, 0xFF#8], c ∉ [0x01#8, 0x02#8, 0x04#8, 0x08#8, 0x10#8, 0x20#8, 0x40#8, 0x80#8] := by decide

/-- Off with everything pending (95 V4), and a frame in flight with nothing pending (95 V33). -/
theorem witness_ProcessDoesNothing :
    inPhase .off { at' .off FrameContext.zero [0x55#8] with brk := true } ∧
    inPhase .waitForSync (at' .waitForSync FrameContext.zero []) ∧
    elapsedTicks (at' .waitForSync FrameContext.zero []) ≤ Config.params.tTimeout.toNat ∧
    (at' .waitForSync FrameContext.zero []).brk = false ∧ (at' .waitForSync FrameContext.zero []).rxq = [] :=
  ⟨rfl, rfl, Nat.zero_le _, rfl, rfl⟩

/-- WaitForPid with the last byte shortly before NOW wraps (95 V7, V8). -/
def wrapped (now : Time) : State :=
  { at' .waitForPid { FrameContext.zero with tLast := 0xFFFFFFF0#32 } [0x50#8] with now := now }

/-- 95 V8, one tick over; 95 V7, exactly T_TIMEOUT; Done, where the timeout is not armed. -/
theorem witness_ProcessTimeout :
    elapsedTicks (wrapped 0x55#32) = 101 ∧
    shortTimeout.tTimeout.toNat = 100 ∧
    elapsedTicks (wrapped 0x54#32) = 100 ∧ inPhase .waitForPid (wrapped 0x54#32) ∧
    (∃ t, execOn shortTimeout .process (wrapped 0x54#32) = .next t ∧ t.state = 0x02#8 ∧ t.err = 0x00#8) ∧
    inPhase .done (at' .done FrameContext.zero [0x50#8]) ∧
    (∃ t, execOn shortTimeout .process (at' .done FrameContext.zero [0x50#8]) = .next t ∧ t.rxq = []) :=
  ⟨by decide, by decide, by decide, rfl, ⟨_, rfl, by decide, by decide⟩, rfl, _, rfl, by decide⟩

/-- A break with a byte queued, in Done (95 V10) and in ReceivingEcho (95 V11). -/
theorem witness_ProcessTakesBreak :
    inPhase .done { at' .done FrameContext.zero [0x55#8] with brk := true, now := 7#32 } ∧
    (Phase.done.inFrame = true →
      elapsedTicks { at' .done FrameContext.zero [0x55#8] with brk := true, now := 7#32 } ≤ Config.params.tTimeout.toNat) ∧
    inPhase .receivingEcho { lastEcho with brk := true } ∧
    elapsedTicks { lastEcho with brk := true } ≤ Config.params.tTimeout.toNat :=
  ⟨rfl, fun h => (by cases h), rfl, Nat.zero_le _⟩

theorem lastEcho_process : exec .process lastEcho =
    .next (completeSlaveResponse (setFC { lastEcho.fc with idx := 9#4 } (setRxq [] lastEcho))) := by
  rw [show exec .process lastEcho = processStep Config.params lastEcho from rfl]
  rw [(pending Config.params .receivingEcho 0x8B#8 [] lastEcho rfl rfl rfl rfl).processStep_eq (by decide)]
  rfl

theorem lastChecksum_process (len : Nibble) (h : len.toNat ≤ 8) :
    exec .process (lastChecksum len) = .next (completeMasterRequest (stamp (setRxq [] (lastChecksum len)))) := by
  rw [show exec .process (lastChecksum len) = processStep Config.params (lastChecksum len) from rfl]
  rw [(lastChecksum_pending len).processStep_eq (by decide)]
  change checksumByte _ _ (stamp (setRxq [] (lastChecksum len))) = _
  unfold checksumByte
  rw [if_pos (by exact h), if_pos (by simp [chkOK, dataOf])]

/-- An echo byte that mismatches, TXEN at its level in ReceivingEcho. -/
def wrongEcho : State := { lastEcho with rxq := [0x07#8], txen := Config.params.hasTxen }

theorem wrongEcho_process : exec .process wrongEcho = .next (errorEntry .echo (stamp (setRxq [] wrongEcho))) := by
  rw [show exec .process wrongEcho = processStep Config.params wrongEcho from rfl]
  rw [(pending Config.params .receivingEcho 0x07#8 [] wrongEcho rfl rfl rfl rfl).processStep_eq (by decide)]
  rfl

/-- RESET_ERROR, GET_ERROR, another operation, and a PROCESS that raises an error in a state of R35 (g). -/
theorem witness_ErrorMaskIsSticky :
    (∃ t, exec .resetError { State.reset with err := 0x18#8 } = .next t) ∧ (∃ t, exec .getError State.reset = .next t) ∧
    (∃ t, exec .closeIf { State.reset with err := 0x18#8 } = .next t ∧ Instr.closeIf ≠ .resetError ∧ Instr.closeIf ≠ .process) ∧
    (∃ t, exec .process wrongEcho = .next t ∧ t.err = 0x02#8) ∧
    (wrongEcho.txen = true → Config.params.hasTxen = true ∧ inPhase .receivingEcho wrongEcho) :=
  ⟨⟨_, rfl⟩, ⟨_, rfl⟩, ⟨_, rfl, by decide, by decide⟩, ⟨_, wrongEcho_process, rfl⟩, fun h => ⟨h, rfl⟩⟩

/-- A response and a master request that complete. -/
theorem witness_SnapshotWrittenOnCompletion :
    (∃ t, exec .process lastEcho = .next t ∧ t.lf ≠ lastEcho.lf) ∧
    (∃ t, exec .process (lastChecksum 8#4) = .next t ∧ t.lf ≠ (lastChecksum 8#4).lf) :=
  ⟨⟨_, lastEcho_process, by decide⟩, ⟨_, lastChecksum_process _ (by decide), by decide⟩⟩

theorem witness_TimeAdvancedOnlyByTick :
    ∃ t, exec .process lastEcho = .next t ∧ Instr.op .process ≠ .tick := ⟨_, lastEcho_process, by decide⟩

/-- BREAK_IN, OPEN, another operation, a PROCESS that takes a break and one that does not. -/
theorem witness_BreakFlagWriters :
    (∃ t, exec .breakIn State.reset = .next t) ∧ (∃ t, exec (.openIf 0#24) { State.reset with brk := true } = .next t) ∧
    (∃ t, exec .closeIf { State.reset with brk := true } = .next t) ∧
    (∃ t, exec .process { at' .done FrameContext.zero [] with brk := true } = .next t ∧ t.brk = false) ∧
    (∃ t, exec .process lastEcho = .next t) :=
  ⟨⟨_, rfl⟩, ⟨_, rfl⟩, ⟨_, rfl⟩, ⟨_, rfl, by decide⟩, ⟨_, lastEcho_process⟩⟩

theorem witness_TransportActsOnBreakAndQueueOnly :
    (Instr.breakIn.agent = .transport ∧ ∃ t, exec .breakIn State.reset = .next t) ∧
    ((Instr.rxByte 0x55#8).agent = .transport ∧ ∃ t, exec (.rxByte 0x55#8) State.reset = .next t) :=
  ⟨⟨rfl, _, rfl⟩, rfl, _, rfl⟩

theorem witness_FrameInFlightIgnoresTable :
    (lastChecksum 8#4).state ≠ 0x08#8 ∧ ∃ t, exec .process (lastChecksum 8#4) = .next t :=
  ⟨by decide, _, lastChecksum_process _ (by decide)⟩

/-- Two engines, each with a byte delivered. -/
theorem witness_EnginesShareNothing :
    ∃ sys', systemStep 1 [{ params := specParams, state := issued [0xB0000000#32] },
      { params := shortTimeout, state := issued [0xC0000055#32] }] = .next sys' := ⟨_, rfl⟩

theorem witness_ProcessFrame : ∃ t, exec .process lastEcho = .next t := ⟨_, lastEcho_process⟩

/-- A PROCESS that takes a break, one that takes a byte and emits an event, one that sets ERROR_STATE and one that sets
ERROR_TIMEOUT. -/
theorem witness_ProcessTakesOneAction :
    (∃ t, execOn specParams .process { at' .done FrameContext.zero [0x55#8] with brk := true } = .next t ∧ t.brk ≠ true) ∧
    (∃ t, execOn specParams .process
        (at' .waitForChecksum (frame .mr 0x2A#6 2#4 2#4 [0x12#8, 0x34#8]) [0x4F#8]) = .next t ∧ t.events ≠ []) ∧
    (∃ t, execOn specParams .process { lastEcho with state := 0x03#8 } = .next t ∧ lastEcho.err &&& 0x01#8 = 0#8 ∧
      t.err &&& 0x01#8 ≠ 0#8) ∧
    (∃ t, execOn shortTimeout .process (wrapped 0x55#32) = .next t ∧ (wrapped 0x55#32).err &&& 0x04#8 = 0#8 ∧
      t.err &&& 0x04#8 ≠ 0#8) :=
  ⟨⟨_, rfl, by decide⟩, ⟨_, rfl, by decide⟩, ⟨_, rfl, by decide, by decide⟩, _, rfl, by decide, by decide⟩

/-! ### Witnesses: registration, transport and accessors -/

/-- One byte in a buffer of two, and an unbounded buffer. -/
theorem witness_ByteArrives :
    (∀ depth, twoDeep.rxDepth = some depth → ({ State.reset with rxq := [0x55#8] } : State).rxq.length < depth) ∧
    (∀ depth, specParams.rxDepth = some depth → ({ State.reset with rxq := [0x55#8] } : State).rxq.length < depth) :=
  ⟨fun _ h => by cases h; decide, fun _ h => by cases h⟩

/-- A full buffer of two, and a step at it. -/
theorem witness_ByteAlwaysAccepted :
    twoDeep.rxDepth = some 2 ∧ 2 ≤ ({ State.reset with rxq := [0x55#8, 0x50#8] } : State).rxq.length ∧
    ({ State.reset with rxq := [0x55#8, 0x50#8] } : State).rxq.length ≤ 2 ∧
    ∃ t, stepOn twoDeep { issued [0xC0000001#32] with rxq := [0x55#8, 0x50#8] } = .next t :=
  ⟨rfl, by decide, by decide, _, rfl⟩

/-- Lengths 0 and 8; the slot next to the one written. -/
theorem witness_RegistrationWritesSlot :
    (0#8).toNat ≤ 8 ∧ (8#8).toNat ≤ 8 ∧ (0x2B#6 : FrameId) ≠ (0xEA#8).setWidth 6 := by decide

/-- Lengths 9 and 255 (95 G6, G7). -/
theorem witness_RegistrationLengthContract : 8 < (9#8).toNat ∧ 8 < (255#8).toNat := by decide

/-- The PID step of ID 0x2A, whatever is registered for it, and a registration that removes a slot. -/
theorem witness_DeregisteredFrameIsDropped :
    (8#8).toNat ≤ 8 ∧ BytePending Config.params .waitForPid (calcPID 0x2A#8) [] (pidStep .sr 4#4) ∧
    (slotAt (pidStep .sr 4#4) 0x2A#6).present = true ∧
    ∃ t, exec (.regMreq 0xEA#8 2#8 false 9#8) (pidStep .sr 4#4) = .next t ∧ (slotAt t 0x2A#6).present = false :=
  ⟨by decide, pidStep_pending _ _, by decide, _, rfl, by decide⟩

/-- An operation that is no GET; a reachable LF of length 0, at position 0. -/
theorem witness_AccessorResults :
    (∃ t, exec .breakIn State.reset = .next t) ∧ Instr.breakIn ∉ [.getState, .getError, .getLastFrame] ∧
    Reachable State.reset ∧ State.reset.lf.len.toNat ≤ 0 :=
  ⟨⟨_, rfl⟩, by decide, .reset, by decide⟩

/-! ### Witnesses: algorithms and whole frames -/

theorem witness_PidTableAndLaws :
    pidValid 0x50#8 = true ∧ calcPID ((0x10#6 : FrameId).setWidth 8) = calcPID ((0x10#6 : FrameId).setWidth 8) := by decide

/-- A sum of exactly 255, and data in another order (95 section 2.2). -/
theorem witness_ChecksumIsEndAroundSum :
    checksumAcc .v1 0x80#8 0x00#6 [0xFE#8] + (0x01#8).toNat = 255 ∧
    [0xF0#8, 0x20#8, 0x33#8].Perm [0x33#8, 0xF0#8, 0x20#8] := by decide

/-- ID 0x2A registered, a frame with the data issued. -/
def mreqBus (len : Nibble) (data : List Byte) : State :=
  { setSlot 0x2A#6 { kind := .mr, len := len, present := true, handle := 9#8 } State.reset with
    state := 0x02#8, ops := (linMreq specParams.version 0x2A#8 data).map encode ++ [0x60000000#32] }

theorem witness_MasterRequestRoundTrip :
    let s := mreqBus 2#4 [0x12#8, 0x34#8]
    s.state = 0x02#8 ∧ s.rxq = [] ∧ specParams.rxDepth ≠ some 0 ∧
    slotAt s ((0x2A#8).setWidth 6) = { kind := .mr, len := 2#4, present := true, handle := 9#8 } ∧
    (2#4).toNat = [0x12#8, 0x34#8].length ∧ [0x12#8, 0x34#8].length ≤ 8 ∧
    s.ops = (linMreq specParams.version 0x2A#8 [0x12#8, 0x34#8]).map encode ++ [0x60000000#32] :=
  ⟨rfl, rfl, by simp [specParams], by decide, rfl, by decide, rfl⟩

/-- The source's scenario (95 S6) issued on a faithful bus. -/
def srespBus : State :=
  { setSlot 0x10#6 { kind := .sr, len := 4#4, present := true, handle := 7#8 } State.reset with
    state := 0x02#8
    ops := (linHdr 0x10#8 ++ linData ([1#8, 2#8, 3#8, 4#8] ++ [0xA5#8])).map encode ++ [0x60000000#32] }

theorem witness_SlaveResponseRoundTrip :
    srespBus.state = 0x02#8 ∧ srespBus.rxq = [] ∧ specParams.rxDepth ≠ some 0 ∧ (4#4).toNat ≤ 8 ∧
    slotAt srespBus ((0x10#8).setWidth 6) = { kind := .sr, len := 4#4, present := true, handle := 7#8 } ∧
    [1#8, 2#8, 3#8, 4#8] = respondBytes specParams 7#8 0x10#6 4 ∧
    0xA5#8 = checksum specParams.version (calcPID 0x10#8) 0x10#6 [1#8, 2#8, 3#8, 4#8] ∧
    srespBus.ops = (linHdr 0x10#8 ++ linData ([1#8, 2#8, 3#8, 4#8] ++ [0xA5#8])).map encode ++ [0x60000000#32] :=
  ⟨rfl, rfl, by simp [specParams], by decide, by decide, by decide, by decide, rfl⟩

end Sys2Proof.Tests
end

section
/-! PROOFS. What one step does by what is pending, and the parameters it runs with (O9, O10, O18). -/

namespace Sys2Proof.Machine

/-! ### Fetch and cycle, an equation per case -/

theorem fetch_of_ops_nil {s : State} (hops : s.ops = []) : fetch s = none := by
  simp only [fetch, hops]

theorem fetch_of_ops_cons {s : State} {w : Word} {rest : List Word} (hops : s.ops = w :: rest) :
    fetch s = some (w, { s with ops := rest }) := by
  simp only [fetch, hops]

/-- Nothing pending: no execution is consulted (R2, assumption 6). -/
theorem cycle_of_ops_nil (ex : Instr → State → Host.Outcome State Fault Refusal) {s : State} (hops : s.ops = []) :
    cycle ex s = .next s := by
  simp only [cycle, fetch_of_ops_nil hops, idle]

/-- A pending word that decodes is executed without it among the pending words (R52). -/
theorem cycle_of_instr (ex : Instr → State → Host.Outcome State Fault Refusal) {s : State} {w : Word}
    {rest : List Word} {i : Instr} (hops : s.ops = w :: rest) (hdec : decode w = .instr i) :
    cycle ex s = ex i { s with ops := rest } := by
  simp only [cycle, fetch_of_ops_cons hops, hdec]

/-- `execOn_params` as an equation of functions, so that it rewrites under `cycle`. -/
theorem execOn_params_eq_exec : execOn Config.params = exec :=
  funext fun i => funext fun s => execOn_params i s

/-! ### The obligations -/

/-- Settles O9: `step` is `cycle` with `exec`, at a pending word that decodes. -/
theorem stepRunsDecodedWord : Obligations.StepRunsDecodedWord := by
  intro s w rest i hops hdec
  exact cycle_of_instr exec hops hdec

/-- Settles O10: `step` is `cycle` with `exec`, at no pending word. -/
theorem stepIdlesWithoutOperation : Obligations.StepIdlesWithoutOperation := by
  intro s hops
  exact cycle_of_ops_nil exec hops

/-- Settles O18: the two steps are one `cycle`, and their executions agree at the machine's parameters. -/
theorem stepUsesMachineParameters : Obligations.StepUsesMachineParameters := by
  intro s
  calc step s = cycle exec s := rfl
    _ = cycle (execOn Config.params) s := by rw [execOn_params_eq_exec]
    _ = stepOn Config.params s := rfl

end Sys2Proof.Machine
end

section
/-! PROOFS. A property that every operation keeps holds after every step and in every reachable state, said once. -/

namespace Sys2Proof.Machine

variable {Q : State → Prop} {s t : State}

/-- Every operation keeps the property, and neither the pending words nor REFUSED bears on it. -/
structure KeptByOperations (Q : State → Prop) : Prop where
  exec : ∀ {i : Instr} {s t : State}, Q s → exec i s = .next t → Q t
  ops : ∀ {s : State} (ws : List Word), Q s → Q { s with ops := ws }
  refused : ∀ {s : State} (ws : List Word), Q s → Q { s with refused := ws }

theorem KeptByOperations.step (hQ : KeptByOperations Q) (hs : Q s) (h : step s = .next t) : Q t := by
  rcases cycle_cases Machine.exec s with ⟨_, he⟩ | ⟨w, rest, i, _, _, he⟩ | ⟨w, rest, why, _, _, he⟩
  · cases he.symm.trans h
    exact hs
  · exact hQ.exec (hQ.ops rest hs) (he.symm.trans h)
  · cases he.symm.trans h
    exact hQ.refused _ (hQ.ops rest hs)

theorem KeptByOperations.reachable (hQ : KeptByOperations Q) (hreset : Q State.reset) (h : Reachable s) : Q s := by
  induction h with
  | reset => exact hreset
  | issue w s _ ih => exact hQ.ops (w :: s.ops) ih
  | step s t _ hst ih => exact hQ.step ih hst

end Sys2Proof.Machine
end

section
/-! PROOFS. What the operations leave in each element of the state: the byte's arrival, the registration, and PROCESS. -/

namespace Sys2Proof.Machine

variable {P : Params} {s t : State} {ph : Phase} {b : Byte}

/-! ### A byte's arrival writes RXQ and the model's count alone (R203) -/

section
variable (P : Params) (b : Byte) (s : State)

@[simp] theorem receive_state : (receive P b s).state = s.state := by unfold receive; split <;> rfl
@[simp] theorem receive_err : (receive P b s).err = s.err := by unfold receive; split <;> rfl
@[simp] theorem receive_fc : (receive P b s).fc = s.fc := by unfold receive; split <;> rfl
@[simp] theorem receive_brk : (receive P b s).brk = s.brk := by unfold receive; split <;> rfl
@[simp] theorem receive_table : (receive P b s).table = s.table := by unfold receive; split <;> rfl
@[simp] theorem receive_lf : (receive P b s).lf = s.lf := by unfold receive; split <;> rfl
@[simp] theorem receive_now : (receive P b s).now = s.now := by unfold receive; split <;> rfl
@[simp] theorem receive_txen : (receive P b s).txen = s.txen := by unfold receive; split <;> rfl
@[simp] theorem receive_tx : (receive P b s).tx = s.tx := by unfold receive; split <;> rfl
@[simp] theorem receive_reads : (receive P b s).reads = s.reads := by unfold receive; split <;> rfl
@[simp] theorem receive_faults : (receive P b s).faults = s.faults := by unfold receive; split <;> rfl
@[simp] theorem receive_refused : (receive P b s).refused = s.refused := by unfold receive; split <;> rfl

end

/-! ### A registration writes TABLE or FAULTS alone (R170 to R172) -/

section
variable (kind : FrameKind) (idraw len : Byte) (p : Bool) (h : Byte) (s : State)

@[simp] theorem register_state : (register kind idraw len p h s).state = s.state := by unfold register; split <;> rfl
@[simp] theorem register_err : (register kind idraw len p h s).err = s.err := by unfold register; split <;> rfl
@[simp] theorem register_fc : (register kind idraw len p h s).fc = s.fc := by unfold register; split <;> rfl
@[simp] theorem register_brk : (register kind idraw len p h s).brk = s.brk := by unfold register; split <;> rfl
@[simp] theorem register_lf : (register kind idraw len p h s).lf = s.lf := by unfold register; split <;> rfl
@[simp] theorem register_now : (register kind idraw len p h s).now = s.now := by unfold register; split <;> rfl
@[simp] theorem register_txen : (register kind idraw len p h s).txen = s.txen := by unfold register; split <;> rfl
@[simp] theorem register_tx : (register kind idraw len p h s).tx = s.tx := by unfold register; split <;> rfl
@[simp] theorem register_reads : (register kind idraw len p h s).reads = s.reads := by unfold register; split <;> rfl
@[simp] theorem register_refused : (register kind idraw len p h s).refused = s.refused := by
  unfold register; split <;> rfl

theorem register_faults : (register kind idraw len p h s).faults = s.faults ∨
    (8 < len.toNat ∧
      register kind idraw len p h s = { s with faults := s.faults ++ [.contractViolation len] }) := by
  rcases register_cases kind idraw len p h s with ⟨_, he⟩ | ⟨hl, he⟩
  · exact .inl (by rw [he]; rfl)
  · exact .inr ⟨hl, he⟩

theorem slotAt_register (j : FrameId) : slotAt (register kind idraw len p h s) j = slotAt s j ∨
    (j = slotIndex idraw ∧ len.toNat ≤ 8 ∧ slotAt (register kind idraw len p h s) j = slotOf kind len p h) := by
  rcases register_cases kind idraw len p h s with ⟨hl, he⟩ | ⟨_, he⟩ <;> rw [he]
  · by_cases hj : j = slotIndex idraw
    · exact .inr ⟨hj, hl, by simp [slotAt_setSlot, hj]⟩
    · exact .inl (by simp [slotAt_setSlot, hj])
  · exact .inl rfl

theorem slotAt_congr {s t : State} (htable : t.table = s.table) (j : FrameId) : slotAt t j = slotAt s j := by
  simp only [slotAt, htable]

end

/-! ### The phase after the operations that end or start a frame -/

@[simp] theorem inPhase_endFrame (q : Phase) (s : State) : inPhase q (endFrame ph s) ↔ ph = q :=
  code_eq_iff ph q

@[simp] theorem inPhase_errorEntry (q : Phase) (k : ErrorKind) (s : State) :
    inPhase q (errorEntry k s) ↔ .done = q :=
  code_eq_iff .done q

@[simp] theorem inPhase_breakStart (q : Phase) (s : State) : inPhase q (breakStart s) ↔ .waitForSync = q :=
  code_eq_iff .waitForSync q

/-- A state is in one phase only. -/
theorem inPhase_unique {q : Phase} (h : inPhase ph s) (hq : inPhase q s) : ph = q :=
  code_injective ph q (h.symm.trans hq)

/-! ### The elements that PROCESS never writes (R143) -/

/-- TABLE, NOW, READS and the marks are equal in the two states. -/
structure SameOutsideProcess (s t : State) : Prop where
  table : t.table = s.table
  now : t.now = s.now
  reads : t.reads = s.reads
  faults : t.faults = s.faults
  refused : t.refused = s.refused

theorem SameOutsideProcess.trans {s t u : State} (h : SameOutsideProcess s t) (h' : SameOutsideProcess t u) :
    SameOutsideProcess s u where
  table := h'.table.trans h.table
  now := h'.now.trans h.now
  reads := h'.reads.trans h.reads
  faults := h'.faults.trans h.faults
  refused := h'.refused.trans h.refused

theorem dispatchByte_sameOutside (h : dispatchByte P ph b s = .next t) : SameOutsideProcess s t := by
  refine dispatchByte_elim (Q := SameOutsideProcess s) h ?dropped ?sync ?error ?unregistered ?frame ?next ?response
    ?masterRequest ?slaveResponse
  case response => intros; constructor <;> simp [sendResponse]
  case masterRequest => intros; constructor <;> simp [completeMasterRequest]
  case slaveResponse => intros; constructor <;> simp [completeSlaveResponse]
  all_goals intros; constructor <;> simp

theorem processStep_sameOutside (h : processStep P s = .next t) : SameOutsideProcess s t := by
  refine processStep_elim (Q := SameOutsideProcess s) h ?illegal ?nothing ?timeout ?brk ?byte
  case byte =>
    intro ph b rest _ _ _ _ hd
    have taken : SameOutsideProcess s (stampInFrame ph (setRxq rest s)) := by constructor <;> simp
    exact taken.trans (dispatchByte_sameOutside hd)
  case illegal => constructor <;> simp [illegalStateRecovery]
  case timeout => constructor <;> simp [timeoutAbort]
  all_goals intros; constructor <;> simp

/-! ### STATE after PROCESS (R21, R121) -/

theorem dispatchByte_state (h : dispatchByte P ph b s = .next t) :
    t.state = s.state ∨ ∃ q : Phase, inPhase q t := by
  refine dispatchByte_elim (Q := fun u => u.state = s.state ∨ ∃ q : Phase, inPhase q u) h ?dropped ?sync ?error
    ?unregistered ?frame ?next ?response ?masterRequest ?slaveResponse
  case dropped => exact .inl rfl
  case next => exact fun _ => .inl rfl
  case sync => exact fun _ _ => .inr ⟨.waitForPid, rfl⟩
  case error => exact fun _ _ => .inr ⟨.done, rfl⟩
  case unregistered => exact .inr ⟨.waitForBreak, rfl⟩
  case frame => exact fun q _ _ => .inr ⟨q, rfl⟩
  case response => exact fun _ _ => .inr ⟨.receivingEcho, rfl⟩
  case masterRequest => exact fun _ _ => .inr ⟨.done, rfl⟩
  case slaveResponse => exact fun _ _ _ => .inr ⟨.done, rfl⟩

theorem processStep_state (h : processStep P s = .next t) : t.state = s.state ∨ ∃ q : Phase, inPhase q t := by
  refine processStep_elim (Q := fun u => u.state = s.state ∨ ∃ q : Phase, inPhase q u) h ?illegal ?nothing ?timeout
    ?brk ?byte
  case illegal => exact .inr ⟨.done, rfl⟩
  case nothing => exact .inl rfl
  case timeout => exact .inr ⟨.done, rfl⟩
  case brk => exact fun _ => .inr ⟨.waitForSync, rfl⟩
  case byte => exact fun ph b rest _ _ _ _ hd => by simpa using dispatchByte_state hd

theorem processStep_of_illegal (hs : Phase.ofCode s.state = none) :
    processStep P s = .next (errorEntry .state s) := by
  simp only [processStep, hs, illegalStateRecovery]

/-! ### ERR after PROCESS (R23, R222) -/

/-- The error entry (R222) gave `t`, from a state that has the ERR, EVENTS, LF and TX of `s`. -/
def EnteredError (s t : State) : Prop :=
  ∃ k u, k ≠ ErrorKind.misc ∧ t = errorEntry k u ∧ u.err = s.err ∧ u.events = s.events ∧ u.lf = s.lf ∧ u.tx = s.tx

theorem dispatchByte_err (h : dispatchByte P ph b s = .next t) : t.err = s.err ∨ EnteredError s t := by
  refine dispatchByte_elim (Q := fun u => u.err = s.err ∨ EnteredError s u) h ?dropped ?sync ?error ?unregistered
    ?frame ?next ?response ?masterRequest ?slaveResponse
  case error =>
    refine fun k hk => .inr ⟨k, s, ?_, rfl, rfl, rfl, rfl, rfl⟩
    rcases hk with rfl | rfl | rfl | rfl <;> decide
  all_goals intros; left; simp [sendResponse, completeMasterRequest, completeSlaveResponse]

theorem processStep_err (h : processStep P s = .next t) : t.err = s.err ∨ EnteredError s t := by
  refine processStep_elim (Q := fun u => u.err = s.err ∨ EnteredError s u) h ?illegal ?nothing ?timeout ?brk ?byte
  case illegal => exact .inr ⟨.state, s, by decide, rfl, rfl, rfl, rfl, rfl⟩
  case nothing => exact .inl rfl
  case timeout => exact .inr ⟨.timeout, setRxq [] s, by decide, rfl, rfl, rfl, rfl, rfl⟩
  case brk => exact fun _ => .inl rfl
  case byte => exact fun ph b rest _ _ _ _ hd => by simpa [EnteredError] using dispatchByte_err hd

/-! ### BRK after PROCESS (R26, R123) -/

theorem dispatchByte_brk (h : dispatchByte P ph b s = .next t) : t.brk = s.brk := by
  refine dispatchByte_elim (Q := fun u => u.brk = s.brk) h ?dropped ?sync ?error ?unregistered ?frame ?next ?response
    ?masterRequest ?slaveResponse
  all_goals intros; simp [sendResponse, completeMasterRequest, completeSlaveResponse]

theorem processStep_brk (h : processStep P s = .next t) : t.brk = s.brk ∨ (s.brk = true ∧ t = breakStart s) := by
  refine processStep_elim (Q := fun u => u.brk = s.brk ∨ (s.brk = true ∧ u = breakStart s)) h ?illegal ?nothing
    ?timeout ?brk ?byte
  case illegal => exact .inl rfl
  case nothing => exact .inl rfl
  case timeout => exact .inl rfl
  case brk => exact fun hb => .inr ⟨hb, rfl⟩
  case byte => exact fun ph b rest _ _ _ _ hd => .inl (by simpa using dispatchByte_brk hd)

/-! ### TX after PROCESS (R31, R131) -/

/-- The n+1 bytes of a slave response, taken from FC.buf. -/
theorem sendResponse_tx (P : Params) (s : State) (hlen : s.fc.len.toNat ≤ 8) :
    ∃ xs : List Byte, (sendResponse P s).tx = s.tx ++ xs ∧ xs.length = (sendResponse P s).fc.len.toNat + 1 :=
  ⟨(sendResponse P s).fc.buf.toList.take (s.fc.len.toNat + 1), by simp [sendResponse], by simp [sendResponse]; omega⟩

theorem dispatchByte_tx (h : dispatchByte P ph b s = .next t) : t.tx = s.tx ∨
    (ph = .waitForPid ∧ inPhase .receivingEcho t ∧
      ∃ xs : List Byte, t.tx = s.tx ++ xs ∧ xs.length = t.fc.len.toNat + 1) := by
  cases ph with
  | off => cases h; exact .inl rfl
  | waitForBreak => cases h; exact .inl rfl
  | done => cases h; exact .inl rfl
  | waitForSync =>
    cases h
    exact .inl (by unfold syncByte; split <;> rfl)
  | waitForPid =>
    rcases pidByte_cases h with ⟨_, rfl⟩ | ⟨_, _, rfl⟩ | ⟨_, _, _, rfl⟩ | ⟨_, _, _, hlen, rfl⟩
    · exact .inl rfl
    · exact .inl rfl
    · exact .inl (by unfold startMasterRequest; split <;> rfl)
    · exact .inr ⟨rfl, rfl, sendResponse_tx P _ hlen⟩
  | receivingData => obtain ⟨_, ⟨_, rfl⟩ | ⟨_, rfl⟩⟩ := dataByte_cases h <;> exact .inl rfl
  | receivingEcho => obtain ⟨_, ⟨_, rfl⟩ | ⟨_, _, rfl⟩ | ⟨_, _, rfl⟩⟩ := echoByte_cases h <;> exact .inl rfl
  | waitForChecksum => obtain ⟨_, ⟨_, rfl⟩ | ⟨_, rfl⟩⟩ := checksumByte_cases h <;> exact .inl rfl

theorem processStep_tx (h : processStep P s = .next t) : t.tx = s.tx ∨
    (inPhase .waitForPid s ∧ inPhase .receivingEcho t ∧
      ∃ xs : List Byte, t.tx = s.tx ++ xs ∧ xs.length = t.fc.len.toNat + 1) := by
  refine processStep_elim (Q := fun u => u.tx = s.tx ∨ (inPhase .waitForPid s ∧ inPhase .receivingEcho u ∧
      ∃ xs : List Byte, u.tx = s.tx ++ xs ∧ xs.length = u.fc.len.toNat + 1)) h ?illegal ?nothing ?timeout ?brk ?byte
  case illegal => exact .inl rfl
  case nothing => exact .inl rfl
  case timeout => exact .inl rfl
  case brk => exact fun _ => .inl rfl
  case byte =>
    intro ph b rest hs _ _ _ hd
    rcases dispatchByte_tx hd with htx | ⟨rfl, hecho, htx⟩
    · exact .inl (by simpa using htx)
    · exact .inr ⟨hs, hecho, by simpa using htx⟩

/-! ### LF after PROCESS (R28, R135, R140) -/

/-- `b` completes the frame in flight in phase `ph`: it is the checksum of a master request, or the last echo of a
slave response. -/
def CompletesFrame (P : Params) (ph : Phase) (kind : FrameKind) (b : Byte) (fc : FrameContext) : Prop :=
  (ph = .waitForChecksum ∧ kind = .mr ∧ b = checksum P.version fc.pid fc.id (dataOf fc)) ∨
  (ph = .receivingEcho ∧ kind = .sr ∧ fc.idx = fc.len ∧ b = bufAt fc.buf fc.len.toNat)

theorem dispatchByte_lf (h : dispatchByte P ph b s = .next t) : t.lf = s.lf ∨
    ∃ kind, CompletesFrame P ph kind b s.fc ∧ t.lf = snapshotOf kind s.fc ∧
      t.err = s.err ∧ t.state = 0x80#8 ∧ t.rxq = s.rxq := by
  refine dispatchByte_elim (Q := fun u => u.lf = s.lf ∨ ∃ kind, CompletesFrame P ph kind b s.fc ∧
    u.lf = snapshotOf kind s.fc ∧ u.err = s.err ∧ u.state = 0x80#8 ∧ u.rxq = s.rxq) h ?dropped ?sync ?error
    ?unregistered ?frame ?next ?response ?masterRequest ?slaveResponse
  case masterRequest => exact fun hph hb => .inr ⟨.mr, .inl ⟨hph, rfl, hb⟩, rfl, rfl, rfl, rfl⟩
  case slaveResponse => exact fun hph hidx hb => .inr ⟨.sr, .inr ⟨hph, rfl, hidx, hb⟩, rfl, rfl, rfl, rfl⟩
  all_goals intros; left; simp [sendResponse]

theorem processStep_lf (h : processStep P s = .next t) : t.lf = s.lf ∨
    ∃ ph kind b rest, inPhase ph s ∧ s.rxq = b :: rest ∧ CompletesFrame P ph kind b s.fc ∧
      t.lf = snapshotOf kind s.fc ∧ t.err = s.err ∧ t.state = 0x80#8 ∧ t.rxq = rest := by
  rcases processStep_cases h with ⟨_, rfl⟩ | ⟨_, rfl⟩ | ⟨ph, hs, _, hcase⟩
  · exact .inl rfl
  · exact .inl rfl
  · rcases hcase with ⟨_, _, rfl⟩ | ⟨_, _, rfl⟩ | ⟨_, _, _, rfl⟩ | ⟨_, _, b, rest, hq, hd⟩
    · exact .inl rfl
    · exact .inl rfl
    · exact .inl rfl
    · rcases dispatchByte_lf hd with hlf | ⟨kind, hc, hlf, herr, hstate, hrxq⟩
      · exact .inl (by simpa using hlf)
      · exact .inr ⟨ph, kind, b, rest, hs, hq, by simpa [CompletesFrame, stampInFrame_fc, dataOf] using hc,
          by simpa [snapshotOf, stampInFrame_fc, dataOf] using hlf, by simpa using herr, hstate, by simpa using hrxq⟩

end Sys2Proof.Machine
end

section
/-! PROOFS. Who writes each element of the state (O19, O20, O22 to O26, O37). -/

namespace Sys2Proof.Machine

variable {s t : State} {i : Instr}

/-! ### STATE (R21) -/

theorem mem_stateCodes (c : Byte) :
    c ∈ [0x01#8, 0x02#8, 0x04#8, 0x08#8, 0x10#8, 0x20#8, 0x40#8, 0x80#8] ↔ ∃ ph : Phase, c = ph.code := by
  constructor
  · intro h
    obtain ⟨ph, _, hph⟩ : ∃ ph ∈ allPhases, ph.code = c := List.mem_map.mp h
    exact ⟨ph, hph.symm⟩
  · rintro ⟨ph, rfl⟩
    cases ph <;> decide

/-- Only PROCESS and the lifecycle operations write STATE. -/
theorem exec_state_of_other (h : exec i s = .next t) (hi : i.op ∉ [.process, .openIf, .closeIf, .resetSm]) :
    t.state = s.state := by
  cases i with
  | process | openIf | closeIf | resetSm => simp [Instr.op] at hi
  | _ => cases h; simp

theorem exec_state (h : exec i s = .next t) : t.state = s.state ∨ ∃ ph : Phase, inPhase ph t := by
  cases i with
  | process => exact processStep_state h
  | openIf => cases h; exact .inr ⟨.waitForBreak, rfl⟩
  | closeIf => cases h; exact .inr ⟨.off, rfl⟩
  | resetSm => cases h; exact .inr ⟨.waitForBreak, rfl⟩
  | _ => exact .inl (exec_state_of_other h (by simp [Instr.op]))

/-- Settles O19: `exec_state` for every operation, and PROCESS at an illegal value by `processStep_of_illegal`. -/
theorem stateWrittenByFourOperations : Obligations.StateWrittenByFourOperations := by
  refine ⟨rfl, fun i s t h => ⟨exec_state_of_other h, ?legal, ?read, ?illegal⟩⟩
  case legal => simpa only [mem_stateCodes, inPhase] using exec_state h
  case read => rintro rfl; cases h; rfl
  case illegal =>
    rintro rfl hs
    have hnone : Phase.ofCode s.state = none :=
      (ofCode_eq_none _).mpr fun ph hph => hs ((mem_stateCodes _).mpr ⟨ph, hph⟩)
    cases (processStep_of_illegal hnone).symm.trans h
    exact ⟨rfl, rfl⟩

/-! ### ERR (R23) -/

theorem exec_err_of_other (h : exec i s = .next t) (hreset : i ≠ .resetError) (hprocess : i ≠ .process) :
    t.err = s.err := by
  cases i with
  | process => exact absurd rfl hprocess
  | resetError => exact absurd rfl hreset
  | _ => cases h; simp

theorem and_not_or_self (x m : Byte) : x &&& ~~~(x ||| m) = 0#8 := by
  ext k hk
  cases hx : x[k] <;> simp [hx]

/-- Only RESET_ERROR clears a bit. -/
theorem exec_err_mono (h : exec i s = .next t) (hreset : i ≠ .resetError) : s.err &&& ~~~t.err = 0#8 := by
  have herr : ∃ m, t.err = s.err ||| m := by
    by_cases hp : i = .process
    · subst hp
      rcases processStep_err h with he | ⟨k, u, _, rfl, hu, _⟩
      · exact ⟨0#8, by simp [he]⟩
      · exact ⟨k.mask, by simp [hu]⟩
    · exact ⟨0#8, by simp [exec_err_of_other h hreset hp]⟩
  obtain ⟨m, hm⟩ := herr
  rw [hm]
  exact and_not_or_self _ _

/-- Settles O20: outside RESET_ERROR only PROCESS writes ERR, and there only by the error entry (`processStep_err`). -/
theorem errorMaskIsSticky : Obligations.ErrorMaskIsSticky := by
  refine ⟨rfl, fun i s t h => ⟨?reset, ?get, exec_err_mono h, exec_err_of_other h, ?process⟩⟩
  case reset => rintro rfl; cases h; rfl
  case get => rintro rfl; cases h; rfl
  case process =>
    rintro rfl
    rcases processStep_err h with he | ⟨k, u, hk, rfl, herr, hev, hlf, htx⟩
    · exact .inl he
    · exact .inr ⟨k, hk, by simp [herr], rfl, fun _ => rfl, rfl, hev, hlf, htx⟩

/-! ### FAULTS and REFUSED (R33, R228, R229) -/

theorem exec_faults (h : exec i s = .next t) : t.faults = s.faults ∨
    ∃ idraw len p hd, (i = .regMreq idraw len p hd ∨ i = .regSresp idraw len p hd) ∧ 8 < len.toNat ∧
      t = { s with faults := s.faults ++ [.contractViolation len] } := by
  cases i with
  | process => exact .inl (processStep_sameOutside h).faults
  | regMreq idraw len p hd =>
    cases h
    exact (register_faults .mr idraw len p hd s).imp id fun ⟨hl, he⟩ => ⟨idraw, len, p, hd, .inl rfl, hl, he⟩
  | regSresp idraw len p hd =>
    cases h
    exact (register_faults .sr idraw len p hd s).imp id fun ⟨hl, he⟩ => ⟨idraw, len, p, hd, .inr rfl, hl, he⟩
  | _ => cases h; simp

theorem exec_refused (h : exec i s = .next t) : t.refused = s.refused := by
  cases i with
  | process => exact (processStep_sameOutside h).refused
  | _ => cases h; simp

theorem final_of_marked (h : s.faults ≠ [] ∨ s.refused ≠ []) : final s = false := by
  rcases h with h | h <;> simp [final, unmarked, h]

/-- A step adds a fault mark for a registration that breaks the length contract, and for nothing else (R172, R228). -/
theorem step_faults (h : step s = .next t) : t.faults = s.faults ∨
    ∃ w rest idraw len p hd, s.ops = w :: rest ∧
      (decode w = .instr (.regMreq idraw len p hd) ∨ decode w = .instr (.regSresp idraw len p hd)) ∧ 8 < len.toNat ∧
      t = { s with ops := rest, faults := s.faults ++ [.contractViolation len] } := by
  rcases cycle_cases exec s with ⟨_, he⟩ | ⟨w, rest, i, hops, hdec, he⟩ | ⟨w, rest, why, _, _, he⟩
  · cases he.symm.trans h
    exact .inl rfl
  · rcases exec_faults (he.symm.trans h) with hf | ⟨idraw, len, p, hd, hi, hl, ht⟩
    · exact .inl hf
    · exact .inr ⟨w, rest, idraw, len, p, hd, hops, by rcases hi with rfl | rfl <;> simp [hdec], hl, ht⟩
  · cases he.symm.trans h
    exact .inl rfl

/-- A step adds a refusal mark for a word that does not decode, and for nothing else (R229). -/
theorem step_refused (h : step s = .next t) : t.refused = s.refused ∨
    ∃ w rest why, s.ops = w :: rest ∧ decode w = .refused why ∧
      t = { s with ops := rest, refused := s.refused ++ [w] } := by
  rcases cycle_cases exec s with ⟨_, he⟩ | ⟨w, rest, i, _, _, he⟩ | ⟨w, rest, why, hops, hdec, he⟩
  · cases he.symm.trans h
    exact .inl rfl
  · exact .inl (exec_refused (s := { s with ops := rest }) (he.symm.trans h))
  · cases he.symm.trans h
    exact .inr ⟨w, rest, why, hops, hdec, rfl⟩

theorem step_keeps_marks (h : step s = .next t) (hm : s.faults ≠ [] ∨ s.refused ≠ []) :
    t.faults ≠ [] ∨ t.refused ≠ [] := by
  have hf : s.faults ≠ [] → t.faults ≠ [] := by
    rcases step_faults h with he | ⟨_, _, _, _, _, _, _, _, _, rfl⟩
    · exact fun hs => he ▸ hs
    · simp
  have hr : s.refused ≠ [] → t.refused ≠ [] := by
    rcases step_refused h with he | ⟨_, _, _, _, _, rfl⟩
    · exact fun hs => he ▸ hs
    · simp
  exact hm.imp hf hr

/-- Settles O22: where a step's marks come from, and that a marked state stays marked. -/
theorem marksAndFinalStates : Obligations.MarksAndFinalStates :=
  ⟨rfl, rfl, fun _ _ h => ⟨step_faults h, step_refused h, fun hm =>
    ⟨final_of_marked hm, final_of_marked (step_keeps_marks h hm)⟩⟩⟩

/-! ### TABLE (R27, R51) -/

/-- Settles O23: the registrations by `slotAt_register`, PROCESS by its frame. -/
theorem tableWrittenByRegistration : Obligations.TableWrittenByRegistration := by
  intro i s t h
  cases i with
  | process => exact (processStep_sameOutside h).table
  | regMreq idraw len p hd =>
    cases h
    exact fun j hj => (slotAt_register .mr idraw len p hd s j).resolve_right fun hw => hj hw.1
  | regSresp idraw len p hd =>
    cases h
    exact fun j hj => (slotAt_register .sr idraw len p hd s j).resolve_right fun hw => hj hw.1
  | _ => cases h; simp

/-! ### LF (R28, R54) -/

theorem exec_lf_of_other (h : exec i s = .next t) (hprocess : i ≠ .process) : t.lf = s.lf := by
  cases i with
  | process => exact absurd rfl hprocess
  | _ => cases h; simp

/-- Settles O24: only PROCESS writes LF, and there only at the end of a successful frame (`processStep_lf`). -/
theorem snapshotWrittenOnCompletion : Obligations.SnapshotWrittenOnCompletion := by
  intro i s t h hlf
  obtain rfl : i = .process := by_contra fun hp => hlf (exec_lf_of_other h hp)
  obtain ⟨ph, kind, b, rest, hs, hq, hc, ht, herr, hstate, hrxq⟩ := (processStep_lf h).resolve_left hlf
  refine ⟨rfl, herr, hstate, b, rest, hq, hrxq, ?_⟩
  rcases hc with ⟨rfl, rfl, hb⟩ | ⟨rfl, rfl, hidx, hb⟩
  · exact .inl ⟨hs, hb, ht⟩
  · exact .inr ⟨hs, hidx, hb, ht⟩

/-! ### NOW (R29) -/

/-- Settles O25: PROCESS keeps NOW by its frame, every other operation by the law of the element it writes. -/
theorem timeAdvancedOnlyByTick : Obligations.TimeAdvancedOnlyByTick := by
  intro i s t h htick
  cases i with
  | process => exact (processStep_sameOutside h).now
  | tick => exact absurd rfl htick
  | _ => cases h; simp

/-! ### BRK (R26) -/

/-- Settles O26: PROCESS changes BRK only by `breakStart` (`processStep_brk`). -/
theorem breakFlagWriters : Obligations.BreakFlagWriters := by
  refine ⟨rfl, fun i s t h => ?_⟩
  cases i with
  | process =>
    rcases processStep_brk h with hb | ⟨hb, rfl⟩
    · exact .inl hb
    · exact .inr ⟨hb, rfl, rfl, rfl, rfl, rfl⟩
  | _ => cases h; simp

/-! ### READS and the FRAME result (R32, R87, R180 to R183) -/

theorem exec_reads_of_other (h : exec i s = .next t) (hi : i ∉ [.getState, .getError, .getLastFrame]) :
    t.reads = s.reads := by
  cases i with
  | process => exact (processStep_sameOutside h).reads
  | getState | getError | getLastFrame => simp at hi
  | _ => cases h; simp

/-- The first byte of a FRAME result has the kind in bit 7 and the ID in bits 5:0 (R87). -/
theorem kindIdByte (kind : FrameKind) (id : FrameId) :
    kind.code ++ 0#1 ++ id = (kind.code.setWidth 8 <<< 7) ||| id.setWidth 8 := by
  cases kind <;> revert id <;> decide

/-- LF.data is 0x00 at the positions from LF.len up (R28). -/
def PaddedSnapshot (s : State) : Prop := ∀ k, s.lf.len.toNat ≤ k → s.lf.data.toList.getD k 0x00#8 = 0x00#8

/-- A list written into eight bytes leaves 0x00 from its length up. -/
theorem padData_getD_of_le (data : List Byte) (k : Nat) (hk : data.length ≤ k) :
    (padData data).toList.getD k 0x00#8 = 0x00#8 := by
  by_cases h8 : 8 ≤ k
  · simp [List.getD, h8]
  · rw [padData_toList data (by omega)]
    simp [List.getD, List.getElem?_append_right hk]

theorem paddedSnapshot_kept : KeptByOperations PaddedSnapshot where
  exec := by
    intro i s t hs h
    by_cases hlf : t.lf = s.lf
    · simpa only [PaddedSnapshot, hlf] using hs
    · obtain ⟨_, _, _, _, _, _, _, hc⟩ := snapshotWrittenOnCompletion i s t h hlf
      have hpad : ∀ k, s.fc.len.toNat ≤ k → (padData (dataOf s.fc)).toList.getD k 0x00#8 = 0x00#8 :=
        fun k hk => padData_getD_of_le _ k (le_trans (by simp [dataOf]) hk)
      rcases hc with ⟨_, _, ht⟩ | ⟨_, _, _, ht⟩ <;> simpa only [PaddedSnapshot, ht] using hpad
  ops := fun _ h => h
  refused := fun _ h => h

theorem paddedSnapshot_reset : PaddedSnapshot State.reset := by
  intro k _
  have hdata : State.reset.lf.data = padData [] := rfl
  exact hdata ▸ padData_getD_of_le [] k k.zero_le

/-- Settles O37: each accessor is one update; the padding is kept by every operation (`paddedSnapshot_kept`). -/
theorem accessorResults : Obligations.AccessorResults := by
  refine ⟨rfl, rfl, rfl, rfl, rfl, rfl, rfl, rfl, rfl, fun _ => ⟨rfl, rfl, rfl, rfl⟩, fun _ _ _ => exec_reads_of_other,
    rfl, rfl, fun f => ⟨?length, kindIdByte f.kind f.id, ?len, rfl⟩, fun _ hs =>
      paddedSnapshot_kept.reachable paddedSnapshot_reset hs⟩
  case length => simp [LastFrame.packed]
  case len => simp [LastFrame.packed]; omega

end Sys2Proof.Machine
end

section
/-! PROOFS. TX and TXEN (O16). -/

namespace Sys2Proof.Machine

variable {P : Params} {s t u : State} {ph : Phase} {b : Byte} {i : Instr}

/-- Everything an operation can do to STATE and TXEN together (R31): leave both, lower the line outside ReceivingEcho,
go from one phase to another with ReceivingEcho not among them, or enter ReceivingEcho and raise the line. -/
inductive TxenMove (P : Params) (s t : State) : Prop where
  | same (hstate : t.state = s.state) (htxen : t.txen = s.txen)
  | lowered (ht : ¬ inPhase .receivingEcho t) (htxen : t.txen = false)
  | elsewhere (hs : ¬ inPhase .receivingEcho s) (ht : ¬ inPhase .receivingEcho t) (htxen : t.txen = s.txen)
  | raised (hs : ¬ inPhase .receivingEcho s) (ht : inPhase .receivingEcho t)
      (htxen : t.txen = (P.hasTxen || s.txen))

/-- Only STATE and TXEN of the state before matter. -/
theorem TxenMove.of_same (hstate : u.state = s.state) (htxen : u.txen = s.txen) (h : TxenMove P u t) :
    TxenMove P s t := by
  have hphase : inPhase .receivingEcho u ↔ inPhase .receivingEcho s := by simp only [inPhase, hstate]
  cases h with
  | same hst htx => exact .same (hst.trans hstate) (htx.trans htxen)
  | lowered ht htx => exact .lowered ht htx
  | elsewhere hu ht htx => exact .elsewhere (mt hphase.mpr hu) ht (htx.trans htxen)
  | raised hu ht htx => exact .raised (mt hphase.mpr hu) ht (htxen ▸ htx)

/-- A move keeps R35 (g): the line is up in ReceivingEcho only. -/
theorem TxenMove.keeps_txenEcho (hm : TxenMove P s t)
    (hs : s.txen = true → P.hasTxen = true ∧ inPhase .receivingEcho s) :
    t.txen = true → P.hasTxen = true ∧ inPhase .receivingEcho t := by
  intro ht
  cases hm with
  | same hstate htxen =>
    obtain ⟨hline, hecho⟩ := hs (htxen ▸ ht)
    exact ⟨hline, hstate.trans hecho⟩
  | lowered _ htxen => simp [htxen] at ht
  | elsewhere hn _ htxen => exact absurd (hs (htxen ▸ ht)).2 hn
  | raised hn hecho htxen =>
    have hor : P.hasTxen = true ∨ s.txen = true := by simpa [htxen] using ht
    exact ⟨hor.elim id fun h => (hs h).1, hecho⟩

/-- A move keeps the exact invariant of R31. -/
theorem TxenMove.keeps_txenInv (hm : TxenMove P s t) (hs : TxenInv P s) : TxenInv P t := by
  refine ⟨hm.keeps_txenEcho hs.mp, fun ⟨hline, hecho⟩ => ?_⟩
  cases hm with
  | same hstate htxen => exact htxen.trans (hs.mpr ⟨hline, hstate.symm.trans hecho⟩)
  | lowered hn _ => exact absurd hecho hn
  | elsewhere _ hn _ => exact absurd hecho hn
  | raised _ _ htxen => simp [htxen, hline]

theorem dispatchByte_txenMove (hs : inPhase ph s) (h : dispatchByte P ph b s = .next t) : TxenMove P s t := by
  have away : ph ≠ .receivingEcho → ¬ inPhase .receivingEcho s := fun hne hecho => hne (inPhase_unique hs hecho)
  cases ph with
  | off => cases h; exact .same rfl rfl
  | waitForBreak => cases h; exact .same rfl rfl
  | done => cases h; exact .same rfl rfl
  | waitForSync =>
    cases h
    unfold syncByte
    split
    · exact .elsewhere (away (by simp)) (by simp) rfl
    · exact .lowered (by simp) rfl
  | waitForPid =>
    rcases pidByte_cases h with ⟨_, rfl⟩ | ⟨_, _, rfl⟩ | ⟨_, _, _, rfl⟩ | ⟨_, _, _, _, rfl⟩
    · exact .lowered (by simp) rfl
    · exact .elsewhere (away (by simp)) (by simp) rfl
    · unfold startMasterRequest
      split <;> exact .elsewhere (away (by simp)) (by simp) rfl
    · exact .raised (away (by simp)) rfl (by simp [sendResponse, latch])
  | receivingData =>
    obtain ⟨_, ⟨_, rfl⟩ | ⟨_, rfl⟩⟩ := dataByte_cases h
    · exact .elsewhere (away (by simp)) (by simp) rfl
    · exact .same rfl rfl
  | receivingEcho =>
    obtain ⟨_, ⟨_, rfl⟩ | ⟨_, _, rfl⟩ | ⟨_, _, rfl⟩⟩ := echoByte_cases h
    · exact .lowered (by simp) rfl
    · exact .lowered (by simp [completeSlaveResponse]) rfl
    · exact .same rfl rfl
  | waitForChecksum =>
    obtain ⟨_, ⟨_, rfl⟩ | ⟨_, rfl⟩⟩ := checksumByte_cases h
    · exact .elsewhere (away (by simp)) (by simp [completeMasterRequest]) rfl
    · exact .lowered (by simp) rfl

theorem processStep_txenMove (h : processStep P s = .next t) : TxenMove P s t := by
  refine processStep_elim (Q := TxenMove P s) h ?illegal ?nothing ?timeout ?brk ?byte
  case illegal => exact .lowered (by simp [illegalStateRecovery]) rfl
  case nothing => exact .same rfl rfl
  case timeout => exact .lowered (by simp [timeoutAbort]) rfl
  case brk => exact fun _ => .lowered (by simp) rfl
  case byte =>
    intro ph b rest hs _ _ _ hd
    exact (dispatchByte_txenMove (by simpa [inPhase] using hs) hd).of_same (by simp) (by simp)

theorem exec_txenMove (h : exec i s = .next t) : TxenMove Config.params s t := by
  cases i with
  | process => exact processStep_txenMove h
  | openIf | closeIf | resetSm => cases h; exact .lowered (by simp) rfl
  | _ => cases h; exact .same (by simp) (by simp)

theorem txenInv_kept : KeptByOperations (TxenInv Config.params) where
  exec := fun hs h => (exec_txenMove h).keeps_txenInv hs
  ops := fun _ h => h
  refused := fun _ h => h

theorem txenInv_reset (P : Params) : TxenInv P State.reset := by
  have hoff : ¬ inPhase .receivingEcho State.reset := by unfold inPhase; decide
  exact ⟨(absurd · Bool.false_ne_true), fun h => absurd h.2 hoff⟩

theorem exec_tx (h : exec i s = .next t) : t.tx = s.tx ∨
    (i = .process ∧ inPhase .waitForPid s ∧ inPhase .receivingEcho t ∧
      ∃ xs : List Byte, t.tx = s.tx ++ xs ∧ xs.length = t.fc.len.toNat + 1) := by
  cases i with
  | process => exact (processStep_tx h).imp id fun hr => ⟨rfl, hr⟩
  | _ => cases h; simp

/-- Settles O16: TX by `exec_tx`, TXEN by the moves of `exec_txenMove`, which keep the exact invariant. -/
theorem transmitOutputs : Obligations.TransmitOutputs :=
  ⟨rfl, rfl, fun _ _ _ h => exec_tx h, fun _ _ hs h => txenInv_kept.step hs h,
    fun _ hs => txenInv_kept.reachable (txenInv_reset _) hs⟩

end Sys2Proof.Machine
end

section
/-! PROOFS. The invariants of R35: at reset, after every step, in every reachable state; and no stop where they hold
(O12 to O15). -/

namespace Sys2Proof.Machine

variable {P : Params} {s t : State} {ph : Phase} {b : Byte} {i : Instr}

/-! ### The invariants of R35, phase by phase -/

/-- FC holds a latched frame: R35 (b), and the bound that R55 draws from (a). -/
structure LatchedFrame (fc : FrameContext) : Prop where
  id : fc.id = idOf fc.pid
  pid : fc.pid = calcPID (fc.id.setWidth 8)
  len_le : fc.len.toNat ≤ 8

/-- What R35 says of FC in the phase: (b), (d), (e), (f) and (h). -/
def FrameOk : Phase → FrameContext → Prop
  | .off, fc | .waitForBreak, fc | .done, fc => fc = FrameContext.zero
  | .waitForSync, fc | .waitForPid, fc => fc.len.toNat ≤ 8
  | .receivingData, fc => LatchedFrame fc ∧ fc.idx.toNat < fc.len.toNat
  | .waitForChecksum, fc => LatchedFrame fc ∧ fc.idx = fc.len
  | .receivingEcho, fc => LatchedFrame fc ∧ fc.idx.toNat ≤ fc.len.toNat

/-- STATE is a phase, and FC is what R35 says of it: (b) to (f) and (h). -/
def FrameInv (s : State) : Prop := ∃ ph, inPhase ph s ∧ FrameOk ph s.fc

/-- R35 (a). -/
def TableInv (s : State) : Prop := ∀ i : FrameId, (slotAt s i).len.toNat ≤ 8

theorem TableInv.of_table_eq (h : TableInv s) (htable : t.table = s.table) : TableInv t :=
  fun j => slotAt_congr htable j ▸ h j

theorem FrameOk.len_le {fc : FrameContext} (h : FrameOk ph fc) : fc.len.toNat ≤ 8 := by
  cases ph with
  | off | waitForBreak | done => cases h; decide
  | waitForSync | waitForPid => exact h
  | receivingData | receivingEcho | waitForChecksum => exact h.1.len_le

theorem EngineInv.frameOk (h : EngineInv P s) (hs : inPhase ph s) : FrameOk ph s.fc := by
  have latched : hasFrame s → LatchedFrame s.fc := fun hf => ⟨(h.pidAndId hf).1, (h.pidAndId hf).2, h.frameLen⟩
  cases ph with
  | off => exact h.idleContext (.inl hs)
  | waitForBreak => exact h.idleContext (.inr (.inl hs))
  | done => exact h.idleContext (.inr (.inr hs))
  | waitForSync | waitForPid => exact h.frameLen
  | receivingData => exact ⟨latched (.inl hs), h.dataIdx hs⟩
  | waitForChecksum => exact ⟨latched (.inr (.inl hs)), h.checksumIdx hs⟩
  | receivingEcho => exact ⟨latched (.inr (.inr hs)), h.echoIdx hs⟩

theorem EngineInv.frameInv (h : EngineInv P s) : FrameInv s := by
  obtain ⟨ph, hs⟩ := (legal_iff s.state).mp h.stateLegal
  exact ⟨ph, hs, h.frameOk hs⟩

theorem EngineInv.of_frameInv (hframe : FrameInv s) (htable : TableInv s)
    (htxen : s.txen = true → P.hasTxen = true ∧ inPhase .receivingEcho s) : EngineInv P s := by
  obtain ⟨ph, hs, hok⟩ := hframe
  have at_phase : ∀ {q}, inPhase q s → FrameOk q s.fc := fun hq => inPhase_unique hs hq ▸ hok
  have latched : hasFrame s → LatchedFrame s.fc := by
    rintro (hq | hq | hq) <;> exact (at_phase hq).1
  exact {
    tableLen := htable
    pidAndId := fun hf => ⟨(latched hf).id, (latched hf).pid⟩
    stateLegal := (legal_iff s.state).mpr ⟨ph, hs⟩
    dataIdx := fun hq => (at_phase hq).2
    checksumIdx := fun hq => (at_phase hq).2
    echoIdx := fun hq => (at_phase hq).2
    txenEcho := htxen
    idleContext := by rintro (hq | hq | hq) <;> exact at_phase hq
    frameLen := hok.len_le }

/-! ### Every operation keeps them -/

/-- Stamping a consumed byte keeps what R35 says of FC: it writes FC.t_last alone, and only with a frame in flight. -/
theorem FrameOk.stampInFrame (h : FrameOk ph s.fc) : FrameOk ph (stampInFrame ph s).fc := by
  rw [stampInFrame_fc]
  cases ph with
  | off | waitForBreak | done => exact h
  | waitForSync | waitForPid => exact h
  | receivingData | receivingEcho | waitForChecksum => exact ⟨⟨h.1.id, h.1.pid, h.1.len_le⟩, h.2⟩

theorem frameInv_errorEntry (k : ErrorKind) (s : State) : FrameInv (errorEntry k s) := ⟨.done, rfl, rfl⟩

theorem frameInv_syncByte (b : Byte) (hlen : s.fc.len.toNat ≤ 8) : FrameInv (syncByte b s) := by
  unfold syncByte
  split
  · exact ⟨.waitForPid, rfl, hlen⟩
  · exact frameInv_errorEntry _ _

/-- A valid PID latches its own ID and the length of its slot (R130). -/
theorem latchedFrame_latch (hv : pidValid b = true) (e : Slot) (hlen : e.len.toNat ≤ 8) (s : State) :
    LatchedFrame (latch b (idOf b) e s).fc :=
  ⟨rfl, pidValid_eq b hv, hlen⟩

/-- A master request without data waits for its checksum, any other for its first data byte (R132). -/
theorem frameInv_startMasterRequest (hl : LatchedFrame s.fc) (hidx : s.fc.idx = 0#4) :
    FrameInv (startMasterRequest s) := by
  unfold startMasterRequest
  split
  · next h0 => exact ⟨.waitForChecksum, rfl, hl, hidx.trans h0.symm⟩
  · next h0 =>
    have hpos : 0 < s.fc.len.toNat := Nat.pos_of_ne_zero fun hz => h0 (BitVec.eq_of_toNat_eq hz)
    exact ⟨.receivingData, rfl, hl, by simpa [hidx] using hpos⟩

theorem frameInv_sendResponse (P : Params) (hl : LatchedFrame s.fc) : FrameInv (sendResponse P s) :=
  ⟨.receivingEcho, rfl, by simpa [sendResponse] using ⟨hl.id, hl.pid, hl.len_le⟩, by simp [sendResponse]⟩

theorem frameInv_pidByte (htable : TableInv s) (h : pidByte P b s = .next t) : FrameInv t := by
  rcases pidByte_cases h with ⟨_, rfl⟩ | ⟨_, _, rfl⟩ | ⟨hv, _, _, rfl⟩ | ⟨hv, _, _, hlen, rfl⟩
  · exact frameInv_errorEntry _ _
  · exact ⟨.waitForBreak, rfl, rfl⟩
  · exact frameInv_startMasterRequest (latchedFrame_latch hv _ (htable _) s) rfl
  · exact frameInv_sendResponse P (latchedFrame_latch hv _ hlen s)

/-- An index below a length does not wrap. -/
theorem toNat_add_one_of_lt {idx len : Nibble} (h : idx.toNat < len.toNat) : (idx + 1#4).toNat = idx.toNat + 1 := by
  have hlen : len.toNat < 16 := len.isLt
  exact BitVec.toNat_add_of_lt (show idx.toNat + 1 < 16 by omega)

theorem frameInv_dataByte (hs : inPhase .receivingData s) (hok : FrameOk .receivingData s.fc)
    (h : dataByte b s = .next t) : FrameInv t := by
  obtain ⟨hl, hidx⟩ := hok
  obtain ⟨_, ⟨heq, rfl⟩ | ⟨hne, rfl⟩⟩ := dataByte_cases h
  · exact ⟨.waitForChecksum, rfl, ⟨hl.id, hl.pid, hl.len_le⟩, heq⟩
  · refine ⟨.receivingData, hs, ⟨hl.id, hl.pid, hl.len_le⟩, ?_⟩
    have hne' : (s.fc.idx + 1#4).toNat ≠ s.fc.len.toNat := fun he => hne (BitVec.eq_of_toNat_eq he)
    have hstep := toNat_add_one_of_lt hidx
    simp only [setFC_fc]
    omega

theorem frameInv_echoByte (hs : inPhase .receivingEcho s) (hok : FrameOk .receivingEcho s.fc)
    (h : echoByte b s = .next t) : FrameInv t := by
  obtain ⟨hl, hidx⟩ := hok
  obtain ⟨_, ⟨_, rfl⟩ | ⟨_, _, rfl⟩ | ⟨_, hne, rfl⟩⟩ := echoByte_cases h
  · exact frameInv_errorEntry _ _
  · exact ⟨.done, rfl, rfl⟩
  · refine ⟨.receivingEcho, hs, ⟨hl.id, hl.pid, hl.len_le⟩, ?_⟩
    have hlt : s.fc.idx.toNat < s.fc.len.toNat := lt_of_le_of_ne hidx hne
    have hstep := toNat_add_one_of_lt hlt
    simp only [setFC_fc]
    omega

theorem frameInv_checksumByte (h : checksumByte P b s = .next t) : FrameInv t := by
  obtain ⟨_, ⟨_, rfl⟩ | ⟨_, rfl⟩⟩ := checksumByte_cases h
  · exact ⟨.done, rfl, rfl⟩
  · exact frameInv_errorEntry _ _

theorem frameInv_dispatchByte (htable : TableInv s) (hs : inPhase ph s) (hok : FrameOk ph s.fc)
    (h : dispatchByte P ph b s = .next t) : FrameInv t := by
  cases ph with
  | off | waitForBreak | done => cases h; exact ⟨_, hs, hok⟩
  | waitForSync => cases h; exact frameInv_syncByte b hok
  | waitForPid => exact frameInv_pidByte htable h
  | receivingData => exact frameInv_dataByte hs hok h
  | receivingEcho => exact frameInv_echoByte hs hok h
  | waitForChecksum => exact frameInv_checksumByte h

theorem frameInv_processStep (htable : TableInv s) (hframe : FrameInv s) (h : processStep P s = .next t) :
    FrameInv t := by
  refine processStep_elim (Q := FrameInv) h ?illegal ?nothing ?timeout ?brk ?byte
  case illegal => exact frameInv_errorEntry _ _
  case nothing => exact hframe
  case timeout => exact frameInv_errorEntry _ _
  case brk => exact fun _ => ⟨.waitForSync, rfl, by simp [FrameOk, FrameContext.zero]⟩
  case byte =>
    intro ph b rest hs _ _ _ hd
    obtain ⟨q, hq, hok⟩ := hframe
    obtain rfl : ph = q := inPhase_unique hs hq
    exact frameInv_dispatchByte (htable.of_table_eq (by simp)) (by simpa [inPhase] using hs)
      (FrameOk.stampInFrame (s := setRxq rest s) hok) hd

theorem frameInv_exec (htable : TableInv s) (hframe : FrameInv s) (h : exec i s = .next t) : FrameInv t := by
  cases i with
  | process => exact frameInv_processStep htable hframe h
  | openIf => cases h; exact ⟨.waitForBreak, rfl, rfl⟩
  | closeIf => cases h; exact ⟨.off, rfl, rfl⟩
  | resetSm => cases h; exact ⟨.waitForBreak, rfl, rfl⟩
  | _ => cases h; simpa [FrameInv, inPhase] using hframe

/-- A registration stores a length within the contract or writes no slot (R172). -/
theorem tableInv_register (kind : FrameKind) (idraw len : Byte) (p : Bool) (hd : Byte) (htable : TableInv s) :
    TableInv (register kind idraw len p hd s) := by
  intro j
  rcases slotAt_register kind idraw len p hd s j with he | ⟨_, hlen, he⟩ <;> rw [he]
  · exact htable j
  · rwa [slotOf_len kind len p hd hlen]

theorem tableInv_exec (htable : TableInv s) (h : exec i s = .next t) : TableInv t := by
  cases i with
  | process => exact htable.of_table_eq (processStep_sameOutside h).table
  | regMreq | regSresp => cases h; exact tableInv_register _ _ _ _ _ htable
  | _ => cases h; exact htable.of_table_eq (by simp)

theorem engineInv_kept : KeptByOperations (EngineInv Config.params) where
  exec := fun hs h => .of_frameInv (frameInv_exec hs.tableLen hs.frameInv h) (tableInv_exec hs.tableLen h)
    ((exec_txenMove h).keeps_txenEcho hs.txenEcho)
  ops := fun _ h => .of_frameInv h.frameInv h.tableLen h.txenEcho
  refused := fun _ h => .of_frameInv h.frameInv h.tableLen h.txenEcho

theorem engineInv_reset (P : Params) : EngineInv P State.reset :=
  .of_frameInv ⟨.off, rfl, rfl⟩ (fun j => by simp [slotAt, State.reset, Slot.empty]) (txenInv_reset P).mp

/-! ### PROCESS answers wherever they hold -/

theorem pidByte_answers (P : Params) (b : Byte) (htable : TableInv s) : ∃ t, pidByte P b s = .next t := by
  unfold pidByte
  split
  · simp only
    split
    · split
      · exact ⟨_, rfl⟩
      · exact ⟨_, if_pos (htable _)⟩
    · exact ⟨_, rfl⟩
  · exact ⟨_, rfl⟩

theorem echoByte_answers (b : Byte) (hidx : s.fc.idx.toNat ≤ 8) : ∃ t, echoByte b s = .next t := by
  unfold echoByte
  rw [if_pos hidx]
  split <;> exact ⟨_, rfl⟩

theorem dispatchByte_answers (P : Params) (b : Byte) (htable : TableInv s) (hok : FrameOk ph s.fc) :
    ∃ t, dispatchByte P ph b s = .next t := by
  cases ph with
  | off | waitForBreak | done | waitForSync => exact ⟨_, rfl⟩
  | waitForPid => exact pidByte_answers P b htable
  | receivingData => exact ⟨_, if_pos (hok.2.le.trans hok.1.len_le)⟩
  | receivingEcho => exact echoByte_answers b (hok.2.trans hok.1.len_le)
  | waitForChecksum => exact ⟨_, if_pos hok.1.len_le⟩

theorem processStep_answers (h : EngineInv P s) : ∃ t, processStep P s = .next t := by
  by_contra hstop
  obtain ⟨ph, b, rest, hpend, _, heq⟩ := processStep_stop_cases (not_exists.mp hstop)
  obtain ⟨t, ht⟩ := dispatchByte_answers (s := stampInFrame ph (setRxq rest s)) P b
    (TableInv.of_table_eq h.tableLen (by simp)) (FrameOk.stampInFrame (s := setRxq rest s) (h.frameOk hpend.phase))
  exact hstop ⟨t, heq.trans ht⟩

theorem exec_answers (i : Instr) (h : EngineInv Config.params s) : ∃ t, exec i s = .next t := by
  cases i with
  | process => exact processStep_answers h
  | _ => exact ⟨_, rfl⟩

/-! ### The obligations -/

/-- Settles O12: no frame is in flight and the line is down. -/
theorem resetMeetsInvariants : Obligations.ResetMeetsInvariants :=
  ⟨engineInv_reset _, txenInv_reset _⟩

/-- Settles O13: every operation keeps the invariants (`engineInv_kept`), so every step does. -/
theorem stepKeepsInvariants : Obligations.StepKeepsInvariants :=
  fun _ _ hs h => engineInv_kept.step hs h

/-- Settles O14, by induction on how the state was reached. -/
theorem reachableMeetsInvariants : Obligations.ReachableMeetsInvariants :=
  fun _ hs => engineInv_kept.reachable (engineInv_reset _) hs

/-- Settles O15: the decoded operation answers (`exec_answers`), and a step without one always does. -/
theorem stepNeverStops : Obligations.StepNeverStops := by
  intro s hs
  rcases cycle_cases exec s with ⟨_, he⟩ | ⟨w, rest, i, _, _, he⟩ | ⟨w, rest, why, _, _, he⟩
  · exact ⟨s, he⟩
  · obtain ⟨t, ht⟩ := exec_answers i (engineInv_kept.ops rest hs)
    exact ⟨t, he.trans ht⟩
  · exact ⟨_, he⟩

end Sys2Proof.Machine
end

section
/-! PROOFS. The sequences a step extends, and what it leaves of RXQ (O21). -/

namespace Sys2Proof.Machine

variable {P : Params} {s t : State} {ph : Phase} {b : Byte} {i : Instr}

/-! ### EVENTS and RXQ after a byte's arrival and after a registration -/

@[simp] theorem receive_events (P : Params) (b : Byte) (s : State) : (receive P b s).events = s.events := by
  unfold receive; split <;> rfl

@[simp] theorem register_events (kind : FrameKind) (idraw len : Byte) (p : Bool) (h : Byte) (s : State) :
    (register kind idraw len p h s).events = s.events := by unfold register; split <;> rfl

@[simp] theorem register_rxq (kind : FrameKind) (idraw len : Byte) (p : Bool) (h : Byte) (s : State) :
    (register kind idraw len p h s).rxq = s.rxq := by unfold register; split <;> rfl

/-- Only a queue with a depth can be full (R30). -/
theorem rxHasRoom_eq_false_iff :
    rxHasRoom P s = false ↔ ∃ depth, P.rxDepth = some depth ∧ depth ≤ s.rxq.length := by
  unfold rxHasRoom
  cases P.rxDepth <;> simp

/-! ### EVENTS after PROCESS (R25) -/

theorem dispatchByte_events (h : dispatchByte P ph b s = .next t) : s.events <+: t.events := by
  refine dispatchByte_elim (Q := fun u => s.events <+: u.events) h ?dropped ?sync ?error ?unregistered ?frame ?next
    ?response ?masterRequest ?slaveResponse
  case response => exact fun fc _ => ⟨[.srCall fc.h fc.id fc.len], by simp [sendResponse]⟩
  case masterRequest =>
    exact fun _ _ => ⟨[.mrCall s.fc.h s.fc.id s.fc.len (dataOf s.fc)], by simp [completeMasterRequest]⟩
  all_goals intros; exact List.prefix_rfl

theorem processStep_events (h : processStep P s = .next t) : s.events <+: t.events := by
  refine processStep_elim (Q := fun u => s.events <+: u.events) h ?illegal ?nothing ?timeout ?brk ?byte
  case byte => exact fun ph b rest _ _ _ _ hd => by simpa using dispatchByte_events hd
  all_goals intros; exact List.prefix_rfl

/-! ### RXQ (R30, R203) -/

/-- What an operation can leave of RXQ; at a full queue a byte's arrival leaves a free value (assumption 2). -/
def QueueMove (P : Params) (s t : State) : Prop :=
  t.rxq = s.rxq ∨ (∃ b, s.rxq = b :: t.rxq) ∨ (∃ b, t.rxq = s.rxq ++ [b]) ∨ t.rxq = [] ∨
    ∃ depth, P.rxDepth = some depth ∧ depth ≤ s.rxq.length ∧ t.rxOverflows = s.rxOverflows + 1

theorem queueMove_of_emptied (h : t.rxq = []) : QueueMove P s t := .inr (.inr (.inr (.inl h)))

/-- The byte is taken off the queue before its rule runs, so the rule itself leaves RXQ (R124). -/
theorem dispatchByte_rxq (h : dispatchByte P ph b s = .next t) : t.rxq = s.rxq := by
  refine dispatchByte_elim (Q := fun u => u.rxq = s.rxq) h ?dropped ?sync ?error ?unregistered ?frame ?next ?response
    ?masterRequest ?slaveResponse
  all_goals intros; simp [sendResponse, completeMasterRequest, completeSlaveResponse]

theorem processStep_queueMove (h : processStep P s = .next t) : QueueMove P s t := by
  refine processStep_elim (Q := QueueMove P s) h ?illegal ?nothing ?timeout ?brk ?byte
  case illegal => exact .inl rfl
  case nothing => exact .inl rfl
  case timeout => exact queueMove_of_emptied rfl
  case brk => exact fun _ => .inl rfl
  case byte =>
    intro ph b rest _ _ _ hq hd
    have hrest : t.rxq = rest := by simpa using dispatchByte_rxq hd
    exact .inr (.inl ⟨b, hrest ▸ hq⟩)

theorem receive_queueMove (P : Params) (b : Byte) (s : State) : QueueMove P s (receive P b s) := by
  rcases receive_cases P b s with ⟨_, he⟩ | ⟨hfull, he⟩ <;> rw [he]
  · exact .inr (.inr (.inl ⟨b, rfl⟩))
  · obtain ⟨depth, hdepth, hle⟩ := rxHasRoom_eq_false_iff.mp hfull
    exact .inr (.inr (.inr (.inr ⟨depth, hdepth, hle, rfl⟩)))

/-! ### Every operation, and every step -/

/-- TX, EVENTS and READS of `t` are those of `s`, extended or unchanged, and RXQ has made a move (R61). -/
structure GrowsInOrder (P : Params) (s t : State) : Prop where
  tx : s.tx <+: t.tx
  events : s.events <+: t.events
  reads : s.reads <+: t.reads
  queue : QueueMove P s t

theorem processStep_growsInOrder (h : processStep P s = .next t) : GrowsInOrder P s t where
  tx := by
    rcases processStep_tx h with he | ⟨_, _, xs, he, _⟩
    · exact he ▸ List.prefix_rfl
    · exact he ▸ List.prefix_append _ xs
  events := processStep_events h
  reads := (processStep_sameOutside h).reads ▸ List.prefix_rfl
  queue := processStep_queueMove h

theorem execOn_growsInOrder (h : execOn P i s = .next t) : GrowsInOrder P s t := by
  cases i with
  | process => exact processStep_growsInOrder h
  | rxByte b => cases h; exact ⟨by simp, by simp, by simp, receive_queueMove P b s⟩
  | openIf => cases h; exact ⟨by simp, by simp, by simp, queueMove_of_emptied rfl⟩
  | _ => cases h; exact ⟨by simp, by simp, by simp, .inl (by simp)⟩

theorem stepOn_growsInOrder (h : stepOn P s = .next t) : GrowsInOrder P s t := by
  have unchanged : ∀ ws rs, GrowsInOrder P s { s with ops := ws, refused := rs } :=
    fun _ _ => ⟨List.prefix_rfl, List.prefix_rfl, List.prefix_rfl, .inl rfl⟩
  rcases cycle_cases (execOn P) s with ⟨_, he⟩ | ⟨w, rest, i, _, _, he⟩ | ⟨w, rest, why, _, _, he⟩
  · cases he.symm.trans h
    exact unchanged s.ops s.refused
  · obtain ⟨htx, hevents, hreads, hqueue⟩ := execOn_growsInOrder (he.symm.trans h)
    exact ⟨htx, hevents, hreads, hqueue⟩
  · cases he.symm.trans h
    exact unchanged rest _

/-- Settles O21: what a step leaves of the four sequences (`stepOn_growsInOrder`). -/
theorem sequencesGrowInStepOrder : Obligations.SequencesGrowInStepOrder := by
  intro P s t h
  obtain ⟨htx, hevents, hreads, hqueue⟩ := stepOn_growsInOrder h
  exact ⟨htx, hevents, hreads, hqueue⟩

end Sys2Proof.Machine
end

section
/-! PROOFS. PROCESS outside WaitForPid reads no slot: replacing TABLE before it or after it is the same (O28). -/

namespace Sys2Proof.Machine

variable {P : Params} {s t : State} {ph : Phase}

/-- TABLE is replaced whole. -/
def setTable (tb : Vector Slot 64) (s : State) : State := { s with table := tb }

/-- The outcome with its next state, if it is one, changed by `f`. -/
def mapNext (f : State → State) : Host.Outcome State Fault Refusal → Host.Outcome State Fault Refusal
  | .next s => .next (f s)
  | .fault r => .fault r
  | .refused r => .refused r

@[simp] theorem mapNext_next (f : State → State) (s : State) : mapNext f (.next s) = .next (f s) := rfl

section
variable (P : Params) (tb : Vector Slot 64) (b : Byte) (s : State)

@[simp] theorem setTable_state : (setTable tb s).state = s.state := rfl
@[simp] theorem setTable_fc : (setTable tb s).fc = s.fc := rfl
@[simp] theorem setTable_brk : (setTable tb s).brk = s.brk := rfl
@[simp] theorem setTable_rxq : (setTable tb s).rxq = s.rxq := rfl
@[simp] theorem timedOut_setTable : timedOut P (setTable tb s) = timedOut P s := rfl

theorem stampInFrame_setTable (ph : Phase) (rest : List Byte) :
    stampInFrame ph (setRxq rest (setTable tb s)) = setTable tb (stampInFrame ph (setRxq rest s)) := by
  unfold stampInFrame; split <;> rfl

theorem syncByte_setTable : syncByte b (setTable tb s) = setTable tb (syncByte b s) := by
  unfold syncByte; split <;> rfl

/-! The rules below branch on the byte and on FC, so the replacement moves into every branch. -/

theorem dataByte_setTable : dataByte b (setTable tb s) = mapNext (setTable tb) (dataByte b s) := by
  simp only [dataByte, setTable_fc, apply_ite (mapNext (setTable tb)), mapNext_next, apply_ite (setTable tb)]
  rfl

theorem echoByte_setTable : echoByte b (setTable tb s) = mapNext (setTable tb) (echoByte b s) := by
  simp only [echoByte, setTable_fc, apply_ite (mapNext (setTable tb)), mapNext_next, apply_ite (setTable tb)]
  rfl

theorem checksumByte_setTable : checksumByte P b (setTable tb s) = mapNext (setTable tb) (checksumByte P b s) := by
  simp only [checksumByte, setTable_fc, apply_ite (mapNext (setTable tb)), mapNext_next, apply_ite (setTable tb)]
  rfl

end

/-- Only the byte of WaitForPid is looked up in TABLE (R129). -/
theorem dispatchByte_setTable (tb : Vector Slot 64) (b : Byte) (s : State) (hph : ph ≠ .waitForPid) :
    dispatchByte P ph b (setTable tb s) = mapNext (setTable tb) (dispatchByte P ph b s) := by
  cases ph with
  | waitForPid => exact absurd rfl hph
  | off | waitForBreak | done => rfl
  | waitForSync => exact congrArg Host.Outcome.next (syncByte_setTable tb b s)
  | receivingData => exact dataByte_setTable tb b s
  | receivingEcho => exact echoByte_setTable tb b s
  | waitForChecksum => exact checksumByte_setTable P tb b s

theorem processStep_setTable (tb : Vector Slot 64) (hs : ¬ inPhase .waitForPid s) :
    processStep P (setTable tb s) = mapNext (setTable tb) (processStep P s) := by
  simp only [processStep, setTable_state, timedOut_setTable, setTable_brk, setTable_rxq, stampInFrame_setTable]
  cases hcode : Phase.ofCode s.state with
  | none => rfl
  | some ph =>
    have hph : ph ≠ .waitForPid := fun he => hs (he ▸ (ofCode_eq_some _ _).mp hcode)
    simp only
    split
    · rfl
    split
    · rfl
    split
    · rfl
    cases s.rxq with
    | nil => rfl
    | cons b rest => exact dispatchByte_setTable tb b _ hph

/-- Settles O28: `processStep_setTable` at an answer that is a next state. -/
theorem frameInFlightIgnoresTable : Obligations.FrameInFlightIgnoresTable := by
  intro s t tb hs h
  calc exec .process (setTable tb s) = mapNext (setTable tb) (exec .process s) := processStep_setTable tb hs
    _ = .next (setTable tb t) := by rw [h, mapNext_next]

end Sys2Proof.Machine
end

section
/-! PROOFS. Where PROCESS stops (O51): a byte's rule that would leave the 9-byte buffer, and nowhere else. -/

namespace Sys2Proof.Machine

variable {P : Params} {s : State} {ph : Phase} {b : Byte} {f : Fault}

/-- The rule of the byte `b` in the phase would leave the 9-byte buffer of FC, or the data buffer in it; `f` names the
index or the length (R55, assumption 4). -/
def LeavesBuffer : Phase → Byte → State → Fault → Prop
  | .receivingData, _, s, f | .receivingEcho, _, s, f => 8 < s.fc.idx.toNat ∧ f = .bufferIndex s.fc.idx
  | .waitForChecksum, _, s, f => 8 < s.fc.len.toNat ∧ f = .frameLength s.fc.len
  | .waitForPid, b, s, f =>
    pidValid b = true ∧ (slotAt s (idOf b)).present = true ∧ (slotAt s (idOf b)).kind = .sr ∧
      8 < (slotAt s (idOf b)).len.toNat ∧ f = .frameLength (slotAt s (idOf b)).len
  | .off, _, _, _ | .waitForBreak, _, _, _ | .waitForSync, _, _, _ | .done, _, _, _ => False

theorem pidByte_of_leavesBuffer (P : Params) (h : LeavesBuffer .waitForPid b s f) : pidByte P b s = .fault f := by
  obtain ⟨hvalid, hpresent, hkind, hlen, rfl⟩ := h
  simp [pidByte, hvalid, hpresent, hkind, hlen]

theorem dispatchByte_fault_iff : dispatchByte P ph b s = .fault f ↔ LeavesBuffer ph b s f := by
  cases ph with
  | off | waitForBreak | done | waitForSync => exact ⟨nofun, nofun⟩
  | waitForPid => exact ⟨pidByte_fault, pidByte_of_leavesBuffer P⟩
  | receivingData => exact ⟨dataByte_fault, fun ⟨hidx, hf⟩ => hf ▸ if_neg hidx.not_ge⟩
  | receivingEcho => exact ⟨echoByte_fault, fun ⟨hidx, hf⟩ => hf ▸ if_neg hidx.not_ge⟩
  | waitForChecksum => exact ⟨checksumByte_fault, fun ⟨hlen, hf⟩ => hf ▸ if_neg hlen.not_ge⟩

theorem dispatchByte_ne_refused (r : Refusal) : dispatchByte P ph b s ≠ .refused r := by
  cases ph with
  | off | waitForBreak | done | waitForSync => exact nofun
  | waitForPid =>
    simp only [dispatchByte, pidByte]
    split
    · split
      · split
        · exact nofun
        · split <;> exact nofun
      · exact nofun
    · exact nofun
  | receivingData => simp only [dispatchByte, dataByte]; split <;> exact nofun
  | receivingEcho =>
    simp only [dispatchByte, echoByte]
    split
    · split <;> exact nofun
    · exact nofun
  | waitForChecksum => simp only [dispatchByte, checksumByte]; split <;> exact nofun

/-- Taking the byte and stamping the frame write neither FC.idx, FC.len nor TABLE. -/
theorem leavesBuffer_taken (rest : List Byte) :
    LeavesBuffer ph b (stampInFrame ph (setRxq rest s)) f ↔ LeavesBuffer ph b s f := by
  have hslot : ∀ j, slotAt (stampInFrame ph (setRxq rest s)) j = slotAt s j := slotAt_congr (by simp)
  cases ph <;> simp [LeavesBuffer, stampInFrame_fc, hslot]

/-- PROCESS stops exactly at a pending byte whose rule would leave the buffer. -/
theorem processStep_fault_iff :
    processStep P s = .fault f ↔ ∃ ph b rest, BytePending P ph b rest s ∧ LeavesBuffer ph b s f := by
  constructor
  · intro h
    obtain ⟨ph, b, rest, hpend, _, heq⟩ := processStep_stop_cases (P := P) (s := s) (by simp [h])
    exact ⟨ph, b, rest, hpend, (leavesBuffer_taken rest).mp (dispatchByte_fault_iff.mp (heq.symm.trans h))⟩
  · rintro ⟨ph, b, rest, hpend, hleaves⟩
    have hoff : ph ≠ .off := by rintro rfl; exact hleaves
    exact (hpend.processStep_eq hoff).trans (dispatchByte_fault_iff.mpr ((leavesBuffer_taken rest).mpr hleaves))

theorem processStep_ne_refused (P : Params) (s : State) (r : Refusal) : processStep P s ≠ .refused r := by
  intro h
  obtain ⟨ph, b, rest, _, _, heq⟩ := processStep_stop_cases (P := P) (s := s) (by simp [h])
  exact dispatchByte_ne_refused r (heq.symm.trans h)

/-- In WaitForPid the byte is the protected ID of the slot that answers it (R101). -/
theorem leavesBuffer_waitForPid_iff : LeavesBuffer .waitForPid b s f ↔
    ∃ x e, b = calcPID x ∧ slotAt s (idOf x) = e ∧ e.present = true ∧ e.kind = .sr ∧ 8 < e.len.toNat ∧
      f = .frameLength e.len := by
  constructor
  · rintro ⟨hvalid, hslot⟩
    obtain ⟨x, rfl⟩ : ∃ x, b = calcPID x := ⟨_, pidValid_eq b hvalid⟩
    exact ⟨x, _, rfl, rfl, calcPID_idOf x ▸ hslot⟩
  · rintro ⟨x, e, rfl, rfl, hslot⟩
    exact ⟨pidValid_calcPID x, (calcPID_idOf x).symm ▸ hslot⟩

/-- Settles O51: `processStep_fault_iff`, read phase by phase. -/
theorem processStopsOutsideBuffer : Obligations.ProcessStopsOutsideBuffer := by
  refine ⟨fun b rest s => ⟨?data, ?echo, ?checksum, ?pid⟩, ?converse, processStep_ne_refused _⟩
  case data => exact fun hpend hidx => processStep_fault_iff.mpr ⟨_, _, _, hpend, hidx, rfl⟩
  case echo => exact fun hpend hidx => processStep_fault_iff.mpr ⟨_, _, _, hpend, hidx, rfl⟩
  case checksum => exact fun hpend hlen => processStep_fault_iff.mpr ⟨_, _, _, hpend, hlen, rfl⟩
  case pid =>
    exact fun x e hpend hslot hpresent hkind hlen => processStep_fault_iff.mpr
      ⟨_, _, _, hpend, leavesBuffer_waitForPid_iff.mpr ⟨x, e, rfl, hslot, hpresent, hkind, hlen, rfl⟩⟩
  case converse =>
    intro s f h
    obtain ⟨ph, b, rest, hpend, hleaves⟩ := processStep_fault_iff.mp h
    refine ⟨b, rest, ?_⟩
    cases ph with
    | off | waitForBreak | waitForSync | done => exact hleaves.elim
    | receivingData => exact .inl ⟨hpend, hleaves⟩
    | receivingEcho => exact .inr (.inl ⟨hpend, hleaves⟩)
    | waitForChecksum => exact .inr (.inr (.inl ⟨hpend, hleaves⟩))
    | waitForPid =>
      obtain ⟨x, e, hb, hslot⟩ := leavesBuffer_waitForPid_iff.mp hleaves
      exact .inr (.inr (.inr ⟨x, e, hb, hpend, hslot⟩))

end Sys2Proof.Machine
end

section
/-! PROOFS. A system of engines: a step is one engine's own (O29). -/

namespace Sys2Proof.Machine

/-- Everything a system's step that goes on can do: nothing without an engine `k`, or the step of engine `k` (R63). -/
theorem systemStep_cases {k : Nat} {sys sys' : List Engine} (h : systemStep k sys = .next sys') :
    (sys[k]? = none ∧ sys' = sys) ∨
    ∃ e t, sys[k]? = some e ∧ stepOn e.params e.state = .next t ∧ sys' = sys.set k { e with state := t } := by
  unfold systemStep at h
  split at h
  · next hnone => cases h; exact .inl ⟨hnone, rfl⟩
  · next e hsome =>
    split at h
    · next t hstep => cases h; exact .inr ⟨e, t, hsome, hstep, rfl⟩
    · cases h
    · cases h

/-- Settles O29: the step writes position `k` of the system alone (`systemStep_cases`). -/
theorem enginesShareNothing : Obligations.EnginesShareNothing := by
  intro k sys sys' h
  rcases systemStep_cases h with ⟨hnone, rfl⟩ | ⟨e, t, hsome, hstep, rfl⟩
  · exact ⟨rfl, fun _ _ => rfl, fun e he => by simp [hnone] at he⟩
  · refine ⟨List.length_set, fun j hj => List.getElem?_set_ne hj.symm, fun e' he' => ?_⟩
    obtain rfl : e = e' := Option.some.inj (hsome.symm.trans he')
    exact ⟨t, hstep, List.getElem?_set_self (List.getElem?_eq_some_iff.mp hsome).1⟩

end Sys2Proof.Machine
end

section
/-! PROOFS. The opcode map and the decoder, row by row: which words select a row, and which are refused (O5, O6). -/

namespace Sys2Proof

/-! ### A field put at its place, and read from there (R8) -/

@[simp] theorem placed_zero (n lo : Nat) : placed (0#n) lo = 0#32 := by simp [placed]

theorem placed_and {n : Nat} (x y : BitVec n) (lo : Nat) : placed (x &&& y) lo = placed x lo &&& placed y lo := by
  simp [placed, BitVec.setWidth_and, BitVec.shiftLeft_and_distrib]

/-- Reading a field and putting it back keeps the word's bits of the field. -/
theorem placed_extractLsb' (w : Word) (lo n : Nat) :
    placed (w.extractLsb' lo n) lo = w &&& placed (BitVec.allOnes n) lo := by
  ext k hk
  by_cases hlo : k < lo
  · simp [placed, hlo]
  · by_cases hn : k - lo < n
    · simp [placed, hk, hlo, hn, show lo + (k - lo) = k by omega, BitVec.getLsbD_eq_getElem]
    · simp [placed, hlo, hn]

section
variable {n : Nat} (x : BitVec n) {lo lo' n' : Nat}

theorem extractLsb'_placed (h : lo + n ≤ 32) : (placed x lo).extractLsb' lo n = x := by
  ext k hk
  simp [placed, hk, show lo + k < 32 by omega]

theorem extractLsb'_placed_of_below (h : lo + n ≤ lo') : (placed x lo).extractLsb' lo' n' = 0#n' := by
  ext k hk
  simp [placed, BitVec.getLsbD_of_ge x (lo' + k - lo) (by omega)]

theorem extractLsb'_placed_of_above (h : lo' + n' ≤ lo) : (placed x lo).extractLsb' lo' n' = 0#n' := by
  ext k hk
  simp [placed, show lo' + k < lo by omega]

end

/-- An opcode and a field below it do not overlap: a word made of the two determines both. -/
theorem placed_or_placed_inj {n lo : Nat} {c c' : BitVec 4} {x x' : BitVec n} (h : lo + n ≤ 28) :
    placed c 28 ||| placed x lo = placed c' 28 ||| placed x' lo ↔ c = c' ∧ x = x' := by
  have hop (d : BitVec 4) (y : BitVec n) : opcodeOf (placed d 28 ||| placed y lo) = d := by
    rw [opcodeOf, BitVec.extractLsb'_or, extractLsb'_placed d (by omega), extractLsb'_placed_of_below y h,
      BitVec.or_zero]
  have hfield (d : BitVec 4) (y : BitVec n) : (placed d 28 ||| placed y lo).extractLsb' lo n = y := by
    rw [BitVec.extractLsb'_or, extractLsb'_placed_of_above d h, extractLsb'_placed y (by omega), BitVec.zero_or]
  constructor
  · intro heq
    exact ⟨by rw [← hop c x, heq, hop], by rw [← hfield c x, heq, hfield]⟩
  · rintro ⟨rfl, rfl⟩
    rfl

/-! ### The must-be-zero field of a format (R71 to R75) -/

/-- The lowest bit of the must-be-zero field. -/
def Format.zeroLo : Format → Nat
  | .o => 0
  | .b => 8
  | .t => 0
  | .u => 24
  | .r => 16

/-- The width of the must-be-zero field: a format T word has none. -/
def Format.zeroBits : Format → Nat
  | .o => 28
  | .b => 20
  | .t => 0
  | .u => 4
  | .r => 3

/-- The must-be-zero field of a word of the format. -/
def Format.zeroField (f : Format) (w : Word) : BitVec f.zeroBits := w.extractLsb' f.zeroLo f.zeroBits

theorem Format.zeroField_below_opcode (f : Format) : f.zeroLo + f.zeroBits ≤ 28 := by cases f <;> decide

variable {r : OpRow} {w : Word} {i : Instr}

/-! ### The words that select a row (R76) -/

/-- The mask of a row covers the opcode and the must-be-zero field of its format. -/
theorem mask_of_mem_opRows : ∀ r ∈ opRows,
    r.mask = placed (BitVec.allOnes 4) 28 ||| placed (BitVec.allOnes r.format.zeroBits) r.format.zeroLo := by
  decide

/-- The pattern of a row is an opcode with zeros below it. -/
theorem pat_of_mem_opRows : ∀ r ∈ opRows, r.pat = placed (opcodeOf r.pat) 28 := by decide

theorem rowOf_of_mem_opRows : ∀ r ∈ opRows, rowOf (opcodeOf r.pat) = some r := by decide

theorem and_mask_of_mem_opRows (hr : r ∈ opRows) (w : Word) :
    w &&& r.mask = placed (opcodeOf w) 28 ||| placed (r.format.zeroField w) r.format.zeroLo := by
  rw [mask_of_mem_opRows r hr, opcodeOf, Format.zeroField, placed_extractLsb', placed_extractLsb',
    BitVec.and_or_distrib_left]

/-- A word selects a row iff it has the row's opcode and zeros in the must-be-zero field (R76, R77). -/
theorem selects_iff (hr : r ∈ opRows) :
    r.selects w = true ↔ opcodeOf w = opcodeOf r.pat ∧ r.format.zeroField w = 0#_ := by
  have hpat : r.pat = placed (opcodeOf r.pat) 28 ||| placed (0#r.format.zeroBits) r.format.zeroLo := by
    rw [placed_zero, BitVec.or_zero, ← pat_of_mem_opRows r hr]
  rw [OpRow.selects, beq_iff_eq, and_mask_of_mem_opRows hr, hpat, placed_or_placed_inj r.format.zeroField_below_opcode,
    ← hpat]

theorem rowOf_of_selects (hr : r ∈ opRows) (hw : r.selects w = true) : rowOf (opcodeOf w) = some r := by
  rw [((selects_iff hr).mp hw).1, rowOf_of_mem_opRows r hr]

/-! ### The decoder follows the selected row (R77, R92) -/

theorem decode_of_selects (hr : r ∈ opRows) (hw : r.selects w = true) : decode w = .instr (r.op.build w) := by
  simp [decode, rowOf_of_selects hr hw, hw]

theorem decode_of_no_row (h : ∀ r ∈ opRows, r.selects w = false) : ∃ why, decode w = .refused why := by
  unfold decode
  split
  · exact ⟨_, rfl⟩
  · next r hrow => exact ⟨.mustBeZero r.op, by simp [h r (List.mem_of_find?_eq_some hrow)]⟩

theorem row_of_decode (h : decode w = .instr i) : ∃ r ∈ opRows, r.selects w = true ∧ i = r.op.build w := by
  by_cases hrow : ∃ r ∈ opRows, r.selects w = true
  · obtain ⟨r, hr, hw⟩ := hrow
    exact ⟨r, hr, hw, Decoded.instr.inj (h.symm.trans (decode_of_selects hr hw))⟩
  · obtain ⟨why, hwhy⟩ := decode_of_no_row (w := w) (by simpa using hrow)
    cases h.symm.trans hwhy

/-- Settles O5: a row that selects the word is the one its opcode finds (`rowOf_of_selects`). -/
theorem decodeBySelectedRow : Obligations.DecodeBySelectedRow := by
  refine fun w => ⟨fun r hr r' hr' hw hw' => ?_, fun r hr hw => decode_of_selects hr hw, decode_of_no_row⟩
  exact Option.some.inj ((rowOf_of_selects hr hw).symm.trans (rowOf_of_selects hr' hw'))

/-! ### The refused words (R77) -/

/-- The format of an opcode's row, none for the reserved opcodes (R76, R77). -/
def formatOf (opcode : BitVec 4) : Option Format := (rowOf opcode).map OpRow.format

theorem formatOf_eq_none : ∀ c, formatOf c = none ↔ c ∈ [0x0#4, 0xE#4, 0xF#4] := by decide

theorem formatOf_eq_u : ∀ c, formatOf c = some .u ↔ c = 0x1#4 := by decide

theorem formatOf_eq_o : ∀ c, formatOf c = some .o ↔
    c ∈ [0x2#4, 0x5#4, 0x6#4, 0x7#4, 0x8#4, 0x9#4, 0xA#4, 0xB#4] := by decide

theorem formatOf_eq_r : ∀ c, formatOf c = some .r ↔ c ∈ [0x3#4, 0x4#4] := by decide

theorem formatOf_eq_b : ∀ c, formatOf c = some .b ↔ c = 0xC#4 := by decide

/-- A word is refused iff its opcode has no row or a must-be-zero bit of its row's format is 1. -/
theorem decode_refused_iff_format : (∃ why, decode w = .refused why) ↔
    formatOf (opcodeOf w) = none ∨ ∃ f, formatOf (opcodeOf w) = some f ∧ f.zeroField w ≠ 0#_ := by
  cases hrow : rowOf (opcodeOf w) with
  | none => simp [decode, formatOf, hrow]
  | some r =>
    have hr : r ∈ opRows := List.mem_of_find?_eq_some hrow
    have hop : opcodeOf r.pat = opcodeOf w := by simpa using List.find?_some hrow
    have hsel : r.selects w = true ↔ r.format.zeroField w = 0#_ := by simp [selects_iff hr, hop]
    by_cases hw : r.selects w = true
    · simp [decode, formatOf, hrow, hw, hsel.mp hw]
    · simp [decode, formatOf, hrow, hw, mt hsel.mpr hw]

/-- The same, format by format; a format T word has no must-be-zero bit. -/
theorem decode_refused_iff_bits : (∃ why, decode w = .refused why) ↔
    formatOf (opcodeOf w) = none ∨
    (formatOf (opcodeOf w) = some .u ∧ w.extractLsb' 24 4 ≠ 0#4) ∨
    (formatOf (opcodeOf w) = some .o ∧ w.extractLsb' 0 28 ≠ 0#28) ∨
    (formatOf (opcodeOf w) = some .r ∧ w.extractLsb' 16 3 ≠ 0#3) ∨
    (formatOf (opcodeOf w) = some .b ∧ w.extractLsb' 8 20 ≠ 0#20) := by
  rw [decode_refused_iff_format]
  refine or_congr_right ⟨?_, ?_⟩
  · rintro ⟨f, hf, hz⟩
    cases f with
    | u => exact .inl ⟨hf, hz⟩
    | o => exact .inr (.inl ⟨hf, hz⟩)
    | r => exact .inr (.inr (.inl ⟨hf, hz⟩))
    | b => exact .inr (.inr (.inr ⟨hf, hz⟩))
    | t => exact absurd (Subsingleton.elim (α := BitVec 0) _ _) hz
  · rintro (h | h | h | h)
    all_goals exact ⟨_, h⟩

end Sys2Proof

namespace Sys2Proof.Machine

/-- A pending word that is refused marks REFUSED, whatever the execution (R77, R229). -/
theorem cycle_of_refused (ex : Instr → State → Host.Outcome State Fault Refusal) {s : State} {w : Word}
    {rest : List Word} {why : DecodeRefusal} (hops : s.ops = w :: rest) (hdec : decode w = .refused why) :
    cycle ex s = .next { s with ops := rest, refused := s.refused ++ [w] } := by
  simp only [cycle, fetch_of_ops_cons hops, hdec, markRefused]

/-- Settles O6: `decode_refused_iff_bits` with the opcodes of each format, and `cycle_of_refused`. -/
theorem refusedWordsExactly : Obligations.RefusedWordsExactly := by
  refine fun w => ⟨?iff, fun s rest why hops hdec => ⟨_, cycle_of_refused exec hops hdec, rfl, ?mark⟩⟩
  case iff =>
    simpa only [formatOf_eq_none, formatOf_eq_u, formatOf_eq_o, formatOf_eq_r, formatOf_eq_b, opcodeOf]
      using decode_refused_iff_bits (w := w)
  case mark => exact final_of_marked (.inr (by simp))

end Sys2Proof.Machine
end

section
/-! PROOFS. Encoding and decoding are inverse to each other, but for what a registration word loses (O2, O3, O4). -/

namespace Sys2Proof

/-! ### Decoding an encoded operation -/

/-- The form of an operation that its word keeps: without the ID bits 7:6, and without the handle of a null callback
(R89, R92). -/
def Instr.canonical : Instr → Instr
  | .regMreq idraw len p h => .regMreq (idraw &&& 0x3F#8) len p (if p then h else 0#8)
  | .regSresp idraw len p h => .regSresp (idraw &&& 0x3F#8) len p (if p then h else 0#8)
  | i => i

theorem and_3F_of_idMasked : ∀ idraw : Byte, idMasked idraw = true → idraw &&& 0x3F#8 = idraw := by decide

theorem ite_of_handleCanonical {p : Bool} {h : Byte} (hh : handleCanonical p h = true) :
    (if p then h else 0#8) = h := by
  cases p with
  | true => rfl
  | false => exact (beq_iff_eq.mp hh).symm

theorem Instr.canonical_of_wellFormed {i : Instr} (hi : i.wellFormed = true) : i.canonical = i := by
  cases i with
  | regMreq | regSresp =>
    obtain ⟨hid, hh⟩ := Bool.and_eq_true_iff.mp hi
    simp only [canonical, and_3F_of_idMasked _ hid, ite_of_handleCanonical hh]
  | _ => rfl

/-- The word of every operation selects the operation's own row (R76). -/
theorem encode_selects (i : Instr) : ∃ r ∈ opRows, r.op = i.op ∧ r.selects (encode i) = true := by
  have h : Laws.EncodeSelectsRow.Statement i := by
    open Laws.EncodeSelectsRow in
    cases i with
    | openIf baud => exact openIf baud
    | closeIf => exact closeIf
    | regMreq idraw len p h => exact regMreq idraw len p h
    | regSresp idraw len p h => exact regSresp idraw len p h
    | process => exact process
    | getState => exact getState
    | getError => exact getError
    | resetError => exact resetError
    | resetSm => exact resetSm
    | getLastFrame => exact getLastFrame
    | breakIn => exact breakIn
    | rxByte b => exact rxByte b
    | tick d => exact tick d
  obtain ⟨r, hrow, hop, hsel⟩ := h
  exact ⟨r, List.mem_of_find?_eq_some hrow, hop, hsel⟩

/-- The fields of an encoded word are the operands, and decoding reads them. -/
theorem build_encode (i : Instr) : i.op.build (encode i) = i.canonical := by
  cases i with
  | openIf baud => exact congrArg Instr.openIf (fieldBaud_encodeU _ baud)
  | rxByte b => exact congrArg Instr.rxByte (fieldB_encodeB _ b)
  | tick d => exact congrArg Instr.tick (fieldD_encodeT _ d)
  | regMreq | regSresp =>
    simp only [Instr.op, Op.build, Instr.canonical, encode, decodedId, decodedH, fieldIdraw_encodeR, fieldLen_encodeR,
      fieldP_encodeR, fieldH_encodeR]
  | _ => rfl

theorem decode_encode (i : Instr) : decode (encode i) = .instr i.canonical := by
  obtain ⟨r, hr, hop, hsel⟩ := encode_selects i
  rw [decode_of_selects hr hsel, hop, build_encode]

/-- Settles O2: a well-formed operation is its own canonical form. -/
theorem decodeOfEncode : Obligations.DecodeOfEncode := by
  intro i hi
  rw [decode_encode, Instr.canonical_of_wellFormed hi]

/-- Settles O3: the canonical form of a registration. -/
theorem decodeOfEncodedRegistration : Obligations.DecodeOfEncodedRegistration :=
  fun _ _ _ _ => ⟨decode_encode _, decode_encode _⟩

/-! ### Encoding a decoded word -/

theorem idMasked_decodedId (w : Word) : idMasked (decodedId w) = true := by
  simp [idMasked, decodedId, BitVec.and_assoc]

theorem handleCanonical_decodedH (w : Word) : handleCanonical (fieldP w) (decodedH w) = true := by
  unfold handleCanonical decodedH
  cases fieldP w <;> rfl

theorem wellFormed_build (op : Op) (w : Word) : (op.build w).wellFormed = true := by
  cases op with
  | regMreq | regSresp => exact Bool.and_eq_true_iff.mpr ⟨idMasked_decodedId w, handleCanonical_decodedH w⟩
  | _ => rfl

theorem ofBool_fieldP (w : Word) : BitVec.ofBool (fieldP w) = w.extractLsb' 19 1 := by
  ext k hk
  simp [fieldP, Nat.lt_one_iff.mp hk]

section
variable (op : BitVec 4) {w : Word}

theorem encodeO_of_pattern (h : w &&& 0xFFFFFFFF#32 = placed op 28) : encodeO op = w :=
  h.symm.trans BitVec.and_allOnes

/-- An opcode and the field below it are the whole word, where the pattern covers the rest. -/
theorem placed_or_lowField {mask : Word} {n : Nat} (h : w &&& mask = placed op 28)
    (hcover : mask ||| placed (BitVec.allOnes n) 0 = BitVec.allOnes 32) :
    placed op 28 ||| placed (w.extractLsb' 0 n) 0 = w := by
  rw [placed_extractLsb', ← h, ← BitVec.and_or_distrib_left, hcover, BitVec.and_allOnes]

theorem encodeB_fieldB (h : w &&& 0xFFFFFF00#32 = placed op 28) : encodeB op (fieldB w) = w :=
  placed_or_lowField op h (by decide)

theorem encodeT_fieldD (h : w &&& 0xF0000000#32 = placed op 28) : encodeT op (fieldD w) = w :=
  placed_or_lowField op h (by decide)

theorem encodeU_fieldBaud (h : w &&& 0xFF000000#32 = placed op 28) : encodeU op (fieldBaud w) = w :=
  placed_or_lowField op h (by decide)

/-- A registration word loses bits 7:6, and bits 27:20 too when bit 19 is 0 (R89, R92). -/
theorem encodeR_fields (h : w &&& 0xF0070000#32 = placed op 28) :
    encodeR op (decodedId w) (fieldLen w) (fieldP w) (decodedH w) =
      w &&& (if w.getLsbD 19 then 0xFFFFFF3F#32 else 0xF00FFF3F#32) := by
  have hid : placed (decodedId w) 0 = w &&& 0x3F#32 := by
    rw [decodedId, placed_and, fieldIdraw, placed_extractLsb', BitVec.and_assoc]
    rfl
  have hlen : placed (fieldLen w) 8 = w &&& 0xFF00#32 := placed_extractLsb' w 8 8
  have hh : placed (decodedH w) 20 = w &&& (if w.getLsbD 19 then 0x0FF00000#32 else 0#32) := by
    unfold decodedH fieldP
    split
    · exact placed_extractLsb' w 20 8
    · simp
  have hp : placed (BitVec.ofBool (fieldP w)) 19 = w &&& 0x00080000#32 := by
    rw [ofBool_fieldP]
    exact placed_extractLsb' w 19 1
  rw [encodeR, ← h, hid, hlen, hh, hp]
  simp only [← BitVec.and_or_distrib_left]
  cases w.getLsbD 19 <;> rfl

end

/-- Encoding what a row reads from a word of its pattern, row by row (R92). -/
theorem encode_build_of_pattern (w : Word) : ∀ r ∈ opRows, w &&& r.mask = r.pat →
    encode (r.op.build w) =
      if r.format = .r then w &&& (if w.getLsbD 19 then 0xFFFFFF3F#32 else 0xF00FFF3F#32) else w := by
  simp only [opRows, List.forall_mem_cons, reduceCtorEq, if_true, if_false]
  exact ⟨encodeU_fieldBaud 0x1#4, encodeO_of_pattern 0x2#4, encodeR_fields 0x3#4,
    encodeR_fields 0x4#4, encodeO_of_pattern 0x5#4, encodeO_of_pattern 0x6#4,
    encodeO_of_pattern 0x7#4, encodeO_of_pattern 0x8#4, encodeO_of_pattern 0x9#4,
    encodeO_of_pattern 0xA#4, encodeO_of_pattern 0xB#4, encodeB_fieldB 0xC#4,
    encodeT_fieldD 0xD#4, List.forall_mem_nil _⟩

theorem format_eq_r_iff {r : OpRow} {w : Word} (hr : r ∈ opRows) (hw : r.selects w = true) :
    r.format = .r ↔ opcodeOf w = 0x3#4 ∨ opcodeOf w = 0x4#4 := by
  simpa [formatOf, rowOf_of_selects hr hw] using formatOf_eq_r (opcodeOf w)

/-- Settles O4: the operation is the one its row reads (`row_of_decode`), and `encode_build_of_pattern` encodes it. -/
theorem encodeOfDecode : Obligations.EncodeOfDecode := by
  intro w i h
  obtain ⟨r, hr, hw, rfl⟩ := row_of_decode h
  refine ⟨wellFormed_build r.op w, ?_⟩
  simpa only [format_eq_r_iff hr hw] using encode_build_of_pattern w r hr (beq_iff_eq.mp hw)

end Sys2Proof
end

section
/-! PROOFS. The words of the assembler lines (O7). -/

namespace Sys2Proof.Machine

/-! ### An operand in range, put at its place -/

theorem ofNat_toNat_eq_placed {n : Nat} (x : BitVec n) : BitVec.ofNat 32 x.toNat = placed x 0 := by simp [placed]

theorem placed_zero_shiftLeft {n : Nat} (x : BitVec n) (lo : Nat) : placed x 0 <<< lo = placed x lo := by simp [placed]

/-! ### Registration lines -/

section
variable (op : BitVec 4) (id len h : Byte)

theorem assembleReg_handle : assembleReg (placed op 28) id.toNat len.toNat (some h.toNat) =
    some (encodeR op id len true h) := by
  have hp : (0x00080000#32 : Word) = placed (BitVec.ofBool true) 19 := rfl
  simp only [assembleReg, id.isLt, len.isLt, h.isLt, and_self, if_true, ofNat_toNat_eq_placed,
    placed_zero_shiftLeft, encodeR, hp]
  rw [BitVec.or_assoc (placed op 28), BitVec.or_comm (placed (BitVec.ofBool true) 19),
    ← BitVec.or_assoc (placed op 28)]

theorem assembleReg_null : assembleReg (placed op 28) id.toNat len.toNat none =
    some (encodeR op id len false 0#8) := by
  have hp : placed (BitVec.ofBool false) 19 = 0#32 := rfl
  simp only [assembleReg, id.isLt, len.isLt, and_self, if_true, ofNat_toNat_eq_placed, placed_zero_shiftLeft,
    encodeR, hp, placed_zero, BitVec.or_zero]

end

/-! ### Lines with one operand, in the lowest bits -/

theorem assemble_openLine (baud : BitVec 24) : assemble (.openLine baud.toNat) = some (encode (.openIf baud)) := by
  simp only [assemble, baud.isLt, if_true, ofNat_toNat_eq_placed]
  rfl

theorem assemble_rx (b : Byte) : assemble (.rx b.toNat) = some (encode (.rxByte b)) := by
  simp only [assemble, b.isLt, if_true, ofNat_toNat_eq_placed]
  rfl

theorem assemble_tick (d : BitVec 28) : assemble (.tick d.toNat) = some (encode (.tick d)) := by
  simp only [assemble, d.isLt, if_true, ofNat_toNat_eq_placed]
  rfl

/-- Settles O7: line by line; the lines without operands are words written out. -/
theorem assemblerWords : Obligations.AssemblerWords :=
  ⟨assemble_openLine,
    fun id len h => ⟨assembleReg_handle 0x3#4 id len h, assembleReg_null 0x3#4 id len,
      assembleReg_handle 0x4#4 id len h, assembleReg_null 0x4#4 id len⟩,
    assemble_rx, assemble_tick, rfl, rfl, rfl, rfl, rfl, rfl, rfl, rfl⟩

end Sys2Proof.Machine
end

section
/-! PROOFS. The STATE codes, and the SYNC byte (O8, O43). -/

namespace Sys2Proof.Machine

/-- Settles O8: the codes by definition; the legal values are the phases' codes (`legal_iff`, `mem_stateCodes`). -/
theorem stateCodes : Obligations.StateCodes := by
  refine ⟨rfl, rfl, rfl, rfl, rfl, rfl, rfl, rfl, fun c => ?_⟩
  rw [Bool.eq_iff_iff, legal_iff, decide_eq_true_iff, mem_stateCodes]

/-- Settles O43: the byte's rule (`BytePending.processStep_eq`) is `syncByte`, on the stamped state without the byte. -/
theorem processSyncByte : Obligations.ProcessSyncByte := by
  intro b rest s hpend
  have hrun : exec .process s = .next (syncByte b (stamp (setRxq rest s))) := hpend.processStep_eq (by decide)
  constructor
  · intro hb
    rw [hrun, syncByte, if_pos hb]
    rfl
  · intro hb htxen
    rw [hrun, syncByte, if_neg hb, errorEntry_eq, ← htxen]
    rfl

end Sys2Proof.Machine
end

section
/-! PROOFS. The protected ID: its parity bits, the PID table, the check and the errors it detects (O54). -/

namespace Sys2Proof.Machine

/-! ### The bits of a protected ID (R82, R100) -/

theorem calcPID_parityBit0 (x : Byte) : (calcPID x).getLsbD 6 = parity0 x := by simp [calcPID]

theorem calcPID_parityBit1 (x : Byte) : (calcPID x).getLsbD 7 = parity1 x := by simp [calcPID]

theorem calcPID_idBits : ∀ x : Byte, calcPID x &&& 0x3F#8 = x &&& 0x3F#8 := by decide

/-- Bits 7:6 of the argument play no part. -/
theorem calcPID_of_idBits (x : Byte) : calcPID (x &&& 0x3F#8) = calcPID x := by
  simp [calcPID, parity0, parity1, BitVec.and_assoc]

theorem calcPID_idempotent (x : Byte) : calcPID (calcPID x) = calcPID x := by
  rw [← calcPID_of_idBits (calcPID x), calcPID_idBits, calcPID_of_idBits]

theorem idOf_setWidth (x : FrameId) : idOf (x.setWidth 8) = x := by simp [idOf]

theorem calcPID_injective (x y : FrameId) (h : calcPID (x.setWidth 8) = calcPID (y.setWidth 8)) : x = y := by
  have hid := congrArg idOf h
  rwa [calcPID_idOf, calcPID_idOf, idOf_setWidth, idOf_setWidth] at hid

/-! ### The check (R101, R102) -/

/-- A byte is a protected ID iff its two parity bits are those of its ID bits. -/
theorem pidValid_iff_parity : ∀ b : Byte,
    pidValid b = true ↔ b.getLsbD 6 = parity0 b ∧ b.getLsbD 7 = parity1 b := by
  decide

theorem parity0_xor (x y : Byte) : parity0 (x ^^^ y) = (parity0 x ^^ parity0 y) := by
  simp only [parity0, BitVec.getLsbD_xor, Bool.xor_assoc, Bool.xor_left_comm]

theorem parity1_xor (x y : Byte) : parity1 (x ^^^ y) = (parity1 x ^^ !parity1 y) := by
  simp only [parity1, BitVec.getLsbD_xor, Bool.xor_true, Bool.not_not, Bool.not_xor]
  simp only [Bool.xor_assoc, Bool.xor_left_comm]

/-- Whether an error pattern on a protected ID goes undetected depends on the pattern alone: it does iff it makes a
protected ID of 0x80, the one of ID 0. -/
theorem pidValid_xor {b : Byte} (hb : pidValid b = true) (e : Byte) : pidValid (b ^^^ e) = pidValid (0x80#8 ^^^ e) := by
  obtain ⟨h6, h7⟩ := (pidValid_iff_parity b).mp hb
  have h80 : pidValid 0x80#8 = true := by decide
  obtain ⟨z6, z7⟩ := (pidValid_iff_parity 0x80#8).mp h80
  rw [Bool.eq_iff_iff, pidValid_iff_parity, pidValid_iff_parity, parity0_xor, parity0_xor, parity1_xor, parity1_xor,
    BitVec.getLsbD_xor, BitVec.getLsbD_xor, BitVec.getLsbD_xor, BitVec.getLsbD_xor, h6, h7, z6, z7]
  simp only [Bool.xor_right_inj]

/-- Settles O54: the laws above; the 64 entries and the nine error patterns on 0x80 (`pidValid_xor`) are evaluated. -/
theorem pidTableAndLaws : Obligations.PidTableAndLaws := by
  refine ⟨fun x => ⟨calcPID_parityBit0 x, ?parityBit1, calcPID_idBits x⟩, ?table,
    fun x => ⟨pidValid_calcPID x, calcPID_idempotent x⟩, calcPID_injective, fun _ => beq_eq_decide _ _, ?count,
    fun b hb => ⟨?double, fun k => ?single⟩⟩
  case parityBit1 => rw [calcPID_parityBit1, parity1, Bool.xor_true]
  case table => decide
  case count => decide
  case double => rw [pidValid_xor hb]; decide
  case single => rw [pidValid_xor hb]; revert k; decide

end Sys2Proof.Machine
end

section
/-! PROOFS. The checksum: the accumulator byte by byte, its total, and its complement (O55, O56). -/

namespace Sys2Proof.Machine

variable (v : Version) (pid : Byte) (id : FrameId)

/-! ### The accumulator byte by byte (R103, R104) -/

/-- The seed is chosen by VERSION and the ID alone. -/
theorem checksumAcc_nil :
    checksumAcc v pid id [] = if v = .v1 ∨ id = 0x3C#6 ∨ id = 0x3D#6 then 0 else pid.toNat := by
  simp [checksumAcc, checksumSeed, classical, or_assoc]

theorem checksumAcc_snoc (data : List Byte) (b : Byte) :
    checksumAcc v pid id (data ++ [b]) = checksumAdd (checksumAcc v pid id data) b := by
  rw [checksumAcc, List.foldl_append]
  rfl

theorem checksumAcc_nil_le : checksumAcc v pid id [] ≤ 255 := by
  have hpid := pid.isLt
  rw [checksumAcc_nil]
  split <;> omega

theorem checksumAcc_le (data : List Byte) : checksumAcc v pid id data ≤ 255 := by
  induction data using List.reverseRecOn with
  | nil => exact checksumAcc_nil_le v pid id
  | append_singleton data b ih => rw [checksumAcc_snoc]; exact checksumAdd_le _ b ih

/-! ### The accumulator and the total (R105) -/

theorem checksumAcc_mod (data : List Byte) :
    checksumAcc v pid id data % 255 = (checksumAcc v pid id [] + (data.map BitVec.toNat).sum) % 255 := by
  induction data using List.reverseRecOn with
  | nil => rfl
  | append_singleton data b ih =>
    rw [checksumAcc_snoc, checksumAdd_mod, Nat.add_mod, ih, ← Nat.add_mod]
    simp [Nat.add_assoc]

theorem checksumAcc_eq_zero_iff (data : List Byte) :
    checksumAcc v pid id data = 0 ↔ checksumAcc v pid id [] = 0 ∧ ∀ b ∈ data, b = 0#8 := by
  induction data using List.reverseRecOn with
  | nil => simp
  | append_singleton data b ih =>
    rw [checksumAcc_snoc, checksumAdd_eq_zero, ih]
    simp [or_imp, forall_and, and_assoc]

theorem sum_toNat_eq_zero_iff (data : List Byte) : (data.map BitVec.toNat).sum = 0 ↔ ∀ b ∈ data, b = 0#8 := by
  simp [List.sum_eq_zero_iff, BitVec.toNat_eq]

theorem checksumAcc_eq_zero_iff_total (data : List Byte) :
    checksumAcc v pid id data = 0 ↔ checksumAcc v pid id [] + (data.map BitVec.toNat).sum = 0 := by
  rw [checksumAcc_eq_zero_iff, Nat.add_eq_zero_iff, sum_toNat_eq_zero_iff]

/-- The total fixes the accumulator: 0 for a total of 0, else the one value in 1..255 congruent to the total. -/
theorem checksumAcc_eq_of_sum_eq {data data' : List Byte}
    (h : (data.map BitVec.toNat).sum = (data'.map BitVec.toNat).sum) :
    checksumAcc v pid id data = checksumAcc v pid id data' := by
  have hzero := checksumAcc_eq_zero_iff_total v pid id data
  have hmod := checksumAcc_mod v pid id data
  rw [h, ← checksumAcc_eq_zero_iff_total] at hzero
  rw [h, ← checksumAcc_mod] at hmod
  have hle := checksumAcc_le v pid id data
  have hle' := checksumAcc_le v pid id data'
  omega

theorem checksumAcc_perm {data data' : List Byte} (h : data.Perm data') :
    checksumAcc v pid id data = checksumAcc v pid id data' :=
  checksumAcc_eq_of_sum_eq v pid id (h.map _).sum_eq

/-- A sum of exactly 255 is not folded. -/
theorem checksumAcc_snoc_of_sum_eq {data : List Byte} {b : Byte} (h : checksumAcc v pid id data + b.toNat = 255) :
    checksumAcc v pid id (data ++ [b]) = 255 := by
  rw [checksumAcc_snoc, checksumAdd, h]
  rfl

/-! ### The complement (R103, R105) -/

theorem checksum_toNat (data : List Byte) : (checksum v pid id data).toNat = 255 - checksumAcc v pid id data := by
  have hle := checksumAcc_le v pid id data
  rw [checksum, BitVec.toNat_not, BitVec.toNat_ofNat, Nat.mod_eq_of_lt (by omega)]

theorem checksum_eq_ff_iff (data : List Byte) : checksum v pid id data = 0xFF#8 ↔ checksumAcc v pid id data = 0 := by
  have hle := checksumAcc_le v pid id data
  rw [← BitVec.toNat_inj, checksum_toNat, BitVec.toNat_ofNat]
  omega

theorem checksum_nil :
    checksum v pid id [] = if v = .v1 ∨ id = 0x3C#6 ∨ id = 0x3D#6 then 0xFF#8 else ~~~pid := by
  rw [checksum, checksumAcc_nil]
  split
  · rfl
  · rw [BitVec.ofNat_toNat, BitVec.setWidth_eq]

end Sys2Proof.Machine
end

section
/-! PROOFS. The statements about the checksum (O55, O56). -/

namespace Sys2Proof.Machine

/-- Settles O56: the accumulator's three laws (`checksumAcc_le`, `checksumAcc_mod`, `checksumAcc_eq_zero_iff_total`), by
induction on the data from the last byte, leave it no choice but the one the total makes, whatever the order. -/
theorem checksumIsEndAroundSum : Obligations.ChecksumIsEndAroundSum := by
  intro v pid id data
  refine ⟨checksumAcc_le v pid id data, fun b => ⟨?sumLe, fun hsum => ?sum255⟩, ?allZero, checksum_nil v pid id,
    checksumAcc_mod v pid id data, checksumAcc_eq_zero_iff_total v pid id data, fun data' hperm => ?order⟩
  case sumLe =>
    have hacc := checksumAcc_le v pid id data
    have hb := b.isLt
    omega
  case sum255 =>
    have hacc := checksumAcc_snoc_of_sum_eq v pid id hsum
    exact ⟨hacc, by rw [checksum, hacc]; rfl⟩
  case allZero => rw [checksum_eq_ff_iff, checksumAcc_eq_zero_iff]
  case order => rw [checksum, checksum, checksumAcc_perm v pid id hperm]

/-- Settles O55: the seed, the accumulator after one more byte, and the complement of a value of 8 bits. -/
theorem checksumComputation : Obligations.ChecksumComputation := by
  intro v pid id
  exact ⟨checksumAcc_nil v pid id, fun data =>
    ⟨checksumAcc_snoc v pid id data, checksum_toNat v pid id data, checksumAcc_le v pid id data⟩⟩

end Sys2Proof.Machine
end

section
/-! PROOFS. PROCESS before a byte's rule: an equation per case (O38 to O41), and what it never writes (O52). -/

namespace Sys2Proof.Machine

variable {P : Params} {s t : State} {ph : Phase} {b : Byte}

/-! ### An equation per case (R120 to R123) -/

theorem ofCode_of_inPhase (hs : inPhase ph s) : Phase.ofCode s.state = some ph := (ofCode_eq_some _ _).mpr hs

theorem processStep_of_off (hs : inPhase .off s) : processStep P s = .next s := by
  simp [processStep, ofCode_of_inPhase hs]

theorem processStep_of_timedOut (hs : inPhase ph s) (hframe : ph.inFrame = true) (htime : timedOut P s = true) :
    processStep P s = .next (timeoutAbort s) := by
  have hoff : ph ≠ .off := by rintro rfl; cases hframe
  simp [processStep, ofCode_of_inPhase hs, hoff, hframe, htime]

theorem processStep_of_break (hs : inPhase ph s) (hoff : ph ≠ .off) (hquiet : quiet P ph s) (hbrk : s.brk = true) :
    processStep P s = .next (breakStart s) := by
  unfold quiet at hquiet
  simp [processStep, ofCode_of_inPhase hs, hoff, hquiet, hbrk]

theorem processStep_of_nothing_pending (hs : inPhase ph s) (hquiet : quiet P ph s) (hbrk : s.brk = false)
    (hrxq : s.rxq = []) : processStep P s = .next s := by
  unfold quiet at hquiet
  simp [processStep, ofCode_of_inPhase hs, hquiet, hbrk, hrxq]

/-- The five phases in which the timeout is armed (R122). -/
theorem inFrame_iff : ph.inFrame = true ↔
    ph ∈ [.waitForSync, .waitForPid, .receivingData, .receivingEcho, .waitForChecksum] := by
  cases ph <;> decide

theorem inFrame_eq_false_iff : ph.inFrame = false ↔ ph ∈ [.off, .waitForBreak, .done] := by
  cases ph <;> decide

/-- Settles O38: `processStep_of_illegal`, the error entry being one update. -/
theorem processRecoversIllegalState : Obligations.ProcessRecoversIllegalState := by
  intro s hs
  exact processStep_of_illegal ((ofCode_eq_none _).mpr fun ph hph => hs ((mem_stateCodes _).mpr ⟨ph, hph⟩))

/-- Settles O39: the equations for Off and for nothing pending. -/
theorem processDoesNothing : Obligations.ProcessDoesNothing := by
  rintro s ph hs (rfl | ⟨htime, hbrk, hrxq⟩)
  · exact processStep_of_off hs
  · exact processStep_of_nothing_pending hs ((quiet_iff _ ph s).mpr htime) hbrk hrxq

/-- Settles O41: `processStep_of_break`, taking a break being one update. -/
theorem processTakesBreak : Obligations.ProcessTakesBreak := by
  intro ph s hs hoff htime hbrk
  exact processStep_of_break hs hoff ((quiet_iff _ ph s).mpr htime) hbrk

/-! ### What PROCESS never writes (R120) -/

theorem dispatchByte_ownFields (h : dispatchByte P ph b s = .next t) :
    t.ops = s.ops ∧ t.rxOverflows = s.rxOverflows := by
  refine dispatchByte_elim (Q := fun u => u.ops = s.ops ∧ u.rxOverflows = s.rxOverflows) h ?dropped ?sync ?error
    ?unregistered ?frame ?next ?response ?masterRequest ?slaveResponse
  all_goals intros; simp [sendResponse, completeMasterRequest, completeSlaveResponse]

/-- The model's own two fields. -/
theorem processStep_ownFields (h : processStep P s = .next t) : t.ops = s.ops ∧ t.rxOverflows = s.rxOverflows := by
  refine processStep_elim (Q := fun u => u.ops = s.ops ∧ u.rxOverflows = s.rxOverflows) h ?illegal ?nothing ?timeout
    ?brk ?byte
  case byte => exact fun ph b rest _ _ _ _ hd => by simpa using dispatchByte_ownFields hd
  all_goals intros; simp [illegalStateRecovery, timeoutAbort]

/-- Settles O52: `processStep_sameOutside` and `processStep_ownFields`. -/
theorem processFrame : Obligations.ProcessFrame := by
  intro s t h
  obtain ⟨htable, hnow, hreads, hfaults, hrefused⟩ := processStep_sameOutside h
  exact ⟨htable, hnow, hreads, hfaults, hrefused, processStep_ownFields h⟩

end Sys2Proof.Machine
end

section
/-! PROOFS. One PROCESS takes at most one action (O40, O42, O53). -/

namespace Sys2Proof.Machine

variable {P : Params} {s t : State} {ph : Phase} {b : Byte}

/-! ### What a byte's rule leaves of ERR, EVENTS and TX -/

/-- The errors that a byte can raise (R225). -/
def byteErrors : List ErrorKind := [.sync, .pid, .chk, .echo]

/-- ERR is as it was, or has one more of a byte's errors. -/
def ByteErr (s t : State) : Prop := t.err = s.err ∨ ∃ k ∈ byteErrors, t.err = s.err ||| k.mask

theorem dispatchByte_byteErr (h : dispatchByte P ph b s = .next t) : ByteErr s t := by
  refine dispatchByte_elim (Q := ByteErr s) h ?dropped ?sync ?error ?unregistered ?frame ?next ?response ?masterRequest
    ?slaveResponse
  case error => exact fun k hk => .inr ⟨k, by simpa [byteErrors] using hk, rfl⟩
  all_goals intros; left; simp [sendResponse, completeMasterRequest, completeSlaveResponse]

theorem or_and_of_and_eq_zero (e : Byte) {x m : Byte} (hm : x &&& m = 0#8) : (e ||| x) &&& m = e &&& m := by
  rw [BitVec.and_comm, BitVec.and_or_distrib_left, BitVec.and_comm m x, hm, BitVec.or_zero, BitVec.and_comm]

/-- A bit that no byte's error has is left as it was. -/
theorem ByteErr.and_eq (h : ByteErr s t) {m : Byte} (hm : ∀ k ∈ byteErrors, k.mask &&& m = 0#8) :
    t.err &&& m = s.err &&& m := by
  rcases h with he | ⟨k, hk, he⟩
  · rw [he]
  · rw [he, or_and_of_and_eq_zero _ (hm k hk)]

/-- At most one event is emitted, and bytes are sent only with an SR_CALL, one more than its length (R25, R131). -/
inductive ByteOutput (s t : State) : Prop where
  | none (htx : t.tx = s.tx) (hevents : t.events = s.events)
  | event (htx : t.tx = s.tx) (e : Event) (hevents : t.events = s.events ++ [e])
  | response (h : Byte) (id : FrameId) (n : Nibble) (xs : List Byte)
      (hevents : t.events = s.events ++ [.srCall h id n]) (htx : t.tx = s.tx ++ xs) (hlen : xs.length = n.toNat + 1)

theorem byteOutput_sendResponse (fc : FrameContext) (hlen : fc.len.toNat ≤ 8) :
    ByteOutput s (sendResponse P (setFC fc s)) := by
  obtain ⟨xs, htx, hxs⟩ := sendResponse_tx P (setFC fc s) hlen
  exact .response fc.h fc.id fc.len xs (by simp [sendResponse]) htx (by simpa [sendResponse] using hxs)

/-- Only TX and EVENTS of the state before matter. -/
theorem ByteOutput.of_same {u : State} (h : ByteOutput u t) (htx : u.tx = s.tx) (hevents : u.events = s.events) :
    ByteOutput s t := by
  cases h with
  | none htx' hevents' => exact .none (htx'.trans htx) (hevents'.trans hevents)
  | event htx' e hevents' => exact .event (htx'.trans htx) e (hevents ▸ hevents')
  | response h id n xs hevents' htx' hlen => exact .response h id n xs (hevents ▸ hevents') (htx ▸ htx') hlen

theorem dispatchByte_output (h : dispatchByte P ph b s = .next t) : ByteOutput s t := by
  refine dispatchByte_elim (Q := ByteOutput s) h ?dropped ?sync ?error ?unregistered ?frame ?next ?response
    ?masterRequest ?slaveResponse
  case response => exact byteOutput_sendResponse
  case masterRequest => exact fun _ _ => .event rfl _ rfl
  all_goals intros; exact .none rfl rfl

/-! ### The five actions (R120) -/

/-- What one PROCESS that goes on did. -/
inductive ProcessAction (P : Params) (s t : State) : Prop where
  | nothing (ht : t = s)
  | recovery (hs : legal s.state = false) (ht : t = illegalStateRecovery s)
  | timeout (ph : Phase) (hs : inPhase ph s) (hframe : ph.inFrame = true) (htime : timedOut P s = true)
      (ht : t = timeoutAbort s)
  | breakTaken (ph : Phase) (hs : inPhase ph s) (hbrk : s.brk = true) (ht : t = breakStart s)
  | byte (ph : Phase) (b : Byte) (hs : inPhase ph s) (hbrk : s.brk = false) (hbrk' : t.brk = false)
      (hrxq : s.rxq = b :: t.rxq) (herr : ByteErr s t) (hout : ByteOutput s t)

theorem processStep_action (h : processStep P s = .next t) : ProcessAction P s t := by
  rcases processStep_cases h with ⟨hnone, rfl⟩ | ⟨_, rfl⟩ | ⟨ph, hs, _, hcase⟩
  · exact .recovery ((legal_eq_false _).mpr hnone) rfl
  · exact .nothing rfl
  · rcases hcase with ⟨hframe, htime, rfl⟩ | ⟨_, hbrk, rfl⟩ | ⟨_, _, _, rfl⟩ | ⟨_, hbrk, b, rest, hrxq, hd⟩
    · exact .timeout ph hs hframe htime rfl
    · exact .breakTaken ph hs hbrk rfl
    · exact .nothing rfl
    · have hrest : t.rxq = rest := by simpa using dispatchByte_rxq hd
      exact .byte ph b hs hbrk (by simpa [hbrk] using dispatchByte_brk hd) (hrest ▸ hrxq)
        (by simpa [ByteErr] using dispatchByte_byteErr hd) ((dispatchByte_output hd).of_same (by simp) (by simp))

/-- Only the recovery sets the bit of ERROR_STATE (R225). -/
theorem ProcessAction.state_bit (h : ProcessAction P s t) :
    t.err &&& 0x01#8 = s.err &&& 0x01#8 ∨ t = illegalStateRecovery s := by
  cases h with
  | nothing ht => exact .inl (ht ▸ rfl)
  | recovery _ ht => exact .inr ht
  | timeout _ _ _ _ ht => exact .inl (ht ▸ or_and_of_and_eq_zero s.err (by decide))
  | breakTaken _ _ _ ht => exact .inl (ht ▸ rfl)
  | byte _ _ _ _ _ _ herr => exact .inl (herr.and_eq (by decide))

/-- Only the timeout abort sets the bit of ERROR_TIMEOUT, and only when the timeout fires (R122, R225). -/
theorem ProcessAction.timeout_bit (h : ProcessAction P s t) : t.err &&& 0x04#8 = s.err &&& 0x04#8 ∨
    (∃ ph, inPhase ph s ∧ ph.inFrame = true ∧ timedOut P s = true ∧ t = timeoutAbort s) := by
  cases h with
  | nothing ht => exact .inl (ht ▸ rfl)
  | recovery _ ht => exact .inl (ht ▸ or_and_of_and_eq_zero s.err (by decide))
  | timeout ph hs hframe htime ht => exact .inr ⟨ph, hs, hframe, htime, ht⟩
  | breakTaken _ _ _ ht => exact .inl (ht ▸ rfl)
  | byte _ _ _ _ _ _ herr => exact .inl (herr.and_eq (by decide))

/-- A change of BRK is a break taken (R123). -/
theorem ProcessAction.brk (h : ProcessAction P s t) : t.brk = s.brk ∨ t = breakStart s := by
  cases h with
  | nothing ht | recovery _ ht | timeout _ _ _ _ ht => exact .inl (ht ▸ rfl)
  | breakTaken _ _ _ ht => exact .inr ht
  | byte _ _ _ hbrk hbrk' => exact .inl (hbrk'.trans hbrk.symm)

theorem ProcessAction.output (h : ProcessAction P s t) : ByteOutput s t := by
  cases h with
  | nothing ht | recovery _ ht | timeout _ _ _ _ ht | breakTaken _ _ _ ht => exact ht ▸ .none rfl rfl
  | byte _ _ _ _ _ _ _ hout => exact hout

/-! ### The obligations -/

/-- Settles O40: the equation for a timeout, and `ProcessAction.timeout_bit` where none fires. -/
theorem processTimeout : Obligations.ProcessTimeout := by
  refine fun P ph s hs => ⟨fun hph htime => ?fires, fun hquiet t h => ?quiet⟩
  case fires => exact processStep_of_timedOut hs (inFrame_iff.mpr hph) ((timedOut_iff P s).mpr htime)
  case quiet =>
    rcases (processStep_action h).timeout_bit with he | ⟨q, hq, hframe, htime, _⟩
    · exact he
    · obtain rfl := inPhase_unique hs hq
      rcases hquiet with hle | hidle
      · exact absurd ((timedOut_iff P s).mp htime) hle.not_gt
      · exact absurd hframe (by simp [inFrame_eq_false_iff.mpr hidle])

/-- In Done PROCESS takes a break or leaves STATE (R142). -/
theorem processStep_of_done (hs : inPhase .done s) (h : processStep P s = .next t) :
    t.state = s.state ∨ (s.brk = true ∧ t = breakStart s) := by
  rcases processStep_cases h with ⟨hnone, _⟩ | ⟨_, rfl⟩ | ⟨ph, hph, _, hcase⟩
  · cases (ofCode_of_inPhase hs).symm.trans hnone
  · exact .inl rfl
  · obtain rfl : .done = ph := inPhase_unique hs hph
    rcases hcase with ⟨hframe, _⟩ | ⟨_, hbrk, ht⟩ | ⟨_, _, _, rfl⟩ | ⟨_, _, b, rest, _, hd⟩
    · cases hframe
    · exact .inr ⟨hbrk, ht⟩
    · exact .inl rfl
    · cases hd
      exact .inl rfl

/-- Settles O42: neither phase has a rule for the byte; STATE after PROCESS in Done is `processStep_of_done`. -/
theorem processDropsByte : Obligations.ProcessDropsByte := by
  refine ⟨fun ph b rest s hph hpend => ?drops, fun i s t hs h => ?leaves⟩
  case drops => rcases hph with rfl | rfl <;> exact hpend.processStep_eq (by decide)
  case leaves =>
    cases i with
    | process =>
      rcases processStep_of_done hs h with hstate | ⟨hbrk, rfl⟩
      · exact .inl (hstate.trans hs)
      · exact .inr (.inr ⟨rfl, hbrk, rfl⟩)
    | openIf | closeIf | resetSm => exact .inr (.inl (by simp [Instr.op]))
    | _ => exact .inl ((exec_state_of_other h (by simp [Instr.op])).trans hs)

/-- Settles O53: `processStep_action`, and what each action does to ERR, BRK, EVENTS and TX. -/
theorem processTakesOneAction : Obligations.ProcessTakesOneAction := by
  intro P s t h
  have hact : ProcessAction P s t := processStep_action h
  refine ⟨?actions, fun h0 h1 => ?stateBit, fun h0 h1 => ?timeoutBit, ?queue, fun hne => ?brk, ?events, ?tx⟩
  case actions =>
    cases hact with
    | nothing ht => exact .inl ht
    | recovery hs ht => exact .inr (.inl ⟨hs, ht⟩)
    | timeout ph hs _ _ ht => exact .inr (.inr (.inl ⟨(legal_iff _).mpr ⟨ph, hs⟩, ht⟩))
    | breakTaken ph hs hbrk ht => exact .inr (.inr (.inr (.inl ⟨(legal_iff _).mpr ⟨ph, hs⟩, hbrk, ht⟩)))
    | byte ph b hs hbrk hbrk' hrxq herr =>
      exact .inr (.inr (.inr (.inr ⟨(legal_iff _).mpr ⟨ph, hs⟩, hbrk, hbrk', ⟨b, hrxq⟩, herr⟩)))
  case stateBit =>
    rcases hact.state_bit with he | rfl
    · exact absurd (he.trans h0) h1
    · exact ⟨rfl, rfl, rfl, rfl, rfl⟩
  case timeoutBit =>
    rcases hact.timeout_bit with he | ⟨_, _, _, _, rfl⟩
    · exact absurd (he.trans h0) h1
    · exact ⟨rfl, rfl, rfl, rfl, rfl⟩
  case queue =>
    cases hact with
    | nothing ht | recovery _ ht | breakTaken _ _ _ ht => exact .inl (ht ▸ rfl)
    | timeout _ _ _ _ ht => exact .inr (.inr (ht ▸ ⟨rfl, rfl, rfl, rfl⟩))
    | byte _ b _ _ _ hrxq => exact .inr (.inl ⟨b, hrxq⟩)
  case brk =>
    rcases hact.brk with he | rfl
    · exact absurd he hne
    · exact ⟨rfl, rfl, rfl, rfl, rfl⟩
  case events =>
    cases hact.output with
    | none _ hevents => exact .inl hevents
    | event _ e hevents => exact .inr ⟨e, hevents⟩
    | response h id n _ hevents => exact .inr ⟨_, hevents⟩
  case tx =>
    cases hact.output with
    | none htx | event htx => exact .inl htx
    | response h id n xs hevents htx hlen => exact .inr ⟨h, id, n, xs, hevents, htx, hlen⟩

end Sys2Proof.Machine
end

section
/-! PROOFS. The rule of a consumed byte, an equation per case (O44 to O50). -/

namespace Sys2Proof.Machine

variable {P : Params} {s : State} {ph : Phase} {b : Byte} {rest : List Byte}

/-! ### The byte is taken and the frame stamped (R124) -/

/-- The state on which the byte's rule of a frame in flight runs: the byte taken and FC.t_last stamped (R124). -/
def taken (rest : List Byte) (s : State) : State := stamp (setRxq rest s)

theorem BytePending.processStep_taken (h : BytePending P ph b rest s) (hframe : ph.inFrame = true) :
    processStep P s = dispatchByte P ph b (taken rest s) := by
  have hoff : ph ≠ .off := by rintro rfl; cases hframe
  rw [h.processStep_eq hoff, stampInFrame, if_pos hframe, taken]

/-- The error entry where the line is down already (R35 (g)): TXEN need not be written. -/
theorem errorEntry_of_txen_false (k : ErrorKind) (hs : s.txen = false) :
    errorEntry k s = { s with state := 0x80#8, err := s.err ||| k.mask, fc := FrameContext.zero } := by
  rw [errorEntry_eq, ← hs]

/-! ### The frame buffer (R50, R55) -/

/-- The bytes above the filled ones are kept. -/
theorem bufAt_bufFill_of_le (buf : Vector Byte 9) (xs : List Byte) {k : Nat} (hk : xs.length ≤ k) :
    bufAt (bufFill buf xs) k = bufAt buf k := by
  rcases Nat.lt_or_ge k 9 with h9 | h9
  · unfold bufAt bufFill
    interval_cases k <;> simp [hk.not_gt, bufAt]
  · simp [bufAt, h9]

theorem bufFill_append_take (buf : Vector Byte 9) (xs ys : List Byte) (hlen : (xs ++ ys).length ≤ 9) :
    (bufFill buf (xs ++ ys)).toList.take xs.length = xs := by
  have hle : xs.length ≤ (xs ++ ys).length := by simp
  calc (bufFill buf (xs ++ ys)).toList.take xs.length
      = ((bufFill buf (xs ++ ys)).toList.take (xs ++ ys).length).take xs.length := by
        rw [List.take_take, Nat.min_eq_left hle]
    _ = xs := by rw [bufFill_take buf (xs ++ ys) hlen, List.take_left]

theorem bufAt_bufSet_same (buf : Vector Byte 9) {k : Nat} (b : Byte) (hk : k ≤ 8) : bufAt (bufSet buf k b) k = b := by
  simp [bufAt, bufSet, Vector.toList_setIfInBounds, List.getD_eq_getElem?_getD, Nat.lt_succ_of_le hk]

theorem bufAt_bufSet_of_ne (buf : Vector Byte 9) {j k : Nat} (b : Byte) (hjk : j ≠ k) :
    bufAt (bufSet buf k b) j = bufAt buf j := by
  simp [bufAt, bufSet, Vector.toList_setIfInBounds, List.getD_eq_getElem?_getD, List.getElem?_set_ne hjk.symm]

/-! ### A byte in WaitForPid (R127 to R132) -/

theorem pidByte_of_invalid (P : Params) (s : State) (hb : pidValid b = false) :
    pidByte P b s = .next (errorEntry .pid s) := by
  simp [pidByte, hb]

section
variable {x : Byte} {e : Slot} (P : Params) (hslot : slotAt s (idOf x) = e)
include hslot

theorem pidByte_calcPID_unregistered (hpresent : e.present = false) :
    pidByte P (calcPID x) s = .next (goto .waitForBreak (clearFC s)) := by
  simp [pidByte, pidValid_calcPID, calcPID_idOf, hslot, hpresent]

theorem pidByte_calcPID_masterRequest (hpresent : e.present = true) (hkind : e.kind = .mr) :
    pidByte P (calcPID x) s = .next (startMasterRequest (latch (calcPID x) (idOf x) e s)) := by
  simp [pidByte, pidValid_calcPID, calcPID_idOf, hslot, hpresent, hkind]

theorem pidByte_calcPID_slaveResponse (hpresent : e.present = true) (hkind : e.kind = .sr) (hlen : e.len.toNat ≤ 8) :
    pidByte P (calcPID x) s = .next (sendResponse P (latch (calcPID x) (idOf x) e s)) := by
  simp [pidByte, pidValid_calcPID, calcPID_idOf, hslot, hpresent, hkind, hlen]

end

/-- Settles O44: a byte fails the check exactly when a parity bit is wrong (`pidValid_iff_parity`). -/
theorem processPidParityError : Obligations.ProcessPidParityError := by
  intro b rest s hpend htxen hparity
  have hinvalid : pidValid b = false := by
    rw [← Bool.not_eq_true, pidValid_iff_parity]
    rintro ⟨h0, h1⟩
    rcases hparity with hne | heq
    · exact hne h0
    · rw [parity1, ← heq] at h1
      simp at h1
  calc exec .process s = pidByte Config.params b (taken rest s) := hpend.processStep_taken rfl
    _ = .next (errorEntry .pid (taken rest s)) := pidByte_of_invalid _ _ hinvalid
    _ = _ := congrArg _ (errorEntry_of_txen_false .pid htxen)

/-- Settles O45: the rule of a PID whose slot is empty. -/
theorem processDropsUnregistered : Obligations.ProcessDropsUnregistered := by
  intro x rest s hpend hpresent
  exact (hpend.processStep_taken rfl).trans (pidByte_calcPID_unregistered _ rfl hpresent)

/-- Settles O46: the rule of the PID of a master request, in the latched frame. -/
theorem processStartsMasterRequest : Obligations.ProcessStartsMasterRequest := by
  intro x rest s e hpend hslot hpresent hkind
  calc exec .process s = pidByte Config.params (calcPID x) (taken rest s) := hpend.processStep_taken rfl
    _ = .next (startMasterRequest (latch (calcPID x) (idOf x) e (taken rest s))) :=
      pidByte_calcPID_masterRequest _ hslot hpresent hkind
    _ = _ := by
      rw [← hkind]
      split
      · next hlen => exact congrArg _ (if_pos hlen)
      · next hlen => exact congrArg _ (if_neg hlen)

/-- Where the payload of the frame goes on: to its checksum once FC.idx has reached FC.len (R132, R133). -/
def payloadPhase (fc : FrameContext) : Phase := if fc.idx = fc.len then .waitForChecksum else .receivingData

theorem startMasterRequest_eq (hidx : s.fc.idx = 0#4) : startMasterRequest s = goto (payloadPhase s.fc) s := by
  rw [startMasterRequest, payloadPhase, hidx, apply_ite (goto · s)]
  simp only [eq_comm (a := 0#4)]

/-! ### The response sent (R131) -/

/-- The data of the slave response of the latched frame: the bytes of RESPOND. -/
def responseData (P : Params) (fc : FrameContext) : List Byte := respondBytes P fc.h fc.id fc.len.toNat

/-- The data of the slave response and their checksum. -/
def responseBytes (P : Params) (fc : FrameContext) : List Byte :=
  responseData P fc ++ [checksum P.version fc.pid fc.id (responseData P fc)]

@[simp] theorem responseData_length (P : Params) (fc : FrameContext) : (responseData P fc).length = fc.len.toNat :=
  respondBytes_length _ _ _ _

@[simp] theorem responseBytes_length (P : Params) (fc : FrameContext) :
    (responseBytes P fc).length = fc.len.toNat + 1 := by
  simp [responseBytes]

/-- FC while its slave response is echoed: the bytes sent at the start of the buffer, the rest of it as it was. -/
def echoContext (P : Params) (fc : FrameContext) : FrameContext :=
  { fc with buf := bufFill fc.buf (responseBytes P fc), idx := 0#4 }

theorem txOn_eq (P : Params) (s : State) : txOn P s = { s with txen := P.hasTxen || s.txen } := by
  unfold txOn
  cases P.hasTxen <;> rfl

/-- Sending a response as one update (R131). -/
theorem sendResponse_eq (P : Params) (s : State) (hlen : s.fc.len.toNat ≤ 8) :
    sendResponse P s = { s with
      state := 0x20#8
      fc := echoContext P s.fc
      txen := P.hasTxen || s.txen
      tx := s.tx ++ responseBytes P s.fc
      events := s.events ++ [.srCall s.fc.h s.fc.id s.fc.len] } := by
  have hsent : (bufFill s.fc.buf (responseBytes P s.fc)).toList.take (s.fc.len.toNat + 1) = responseBytes P s.fc := by
    rw [← responseBytes_length P]
    exact bufFill_take _ _ (by simp; omega)
  have hout : sendResponse P s = goto .receivingEcho
      (sendBytes ((bufFill s.fc.buf (responseBytes P s.fc)).toList.take (s.fc.len.toNat + 1))
        (txOn P (setFC (echoContext P s.fc) (emit (.srCall s.fc.h s.fc.id s.fc.len) s)))) := rfl
  rw [hout, hsent, txOn_eq]
  rfl

theorem dataOf_echoContext (P : Params) (fc : FrameContext) (hlen : fc.len.toNat ≤ 8) :
    dataOf (echoContext P fc) = responseData P fc := by
  have htake := bufFill_append_take fc.buf (responseData P fc) [checksum P.version fc.pid fc.id (responseData P fc)]
    (by simp; omega)
  rwa [responseData_length] at htake

/-- The checksum stands in the buffer after the data. -/
theorem bufAt_echoContext (P : Params) (fc : FrameContext) (hlen : fc.len.toNat ≤ 8) :
    bufAt (echoContext P fc).buf fc.len.toNat = checksum P.version fc.pid fc.id (responseData P fc) := by
  rw [echoContext, bufAt_bufFill _ _ _ (by simp) (by simp; omega)]
  simp [responseBytes]

/-- Settles O47: the rule of the PID of a slave response, in the latched frame (`sendResponse_eq`). -/
theorem processSendsSlaveResponse : Obligations.ProcessSendsSlaveResponse := by
  intro x rest s e hpend hslot hpresent hkind hlen
  have hrun : exec .process s = .next (sendResponse Config.params (latch (calcPID x) (idOf x) e (taken rest s))) :=
    (hpend.processStep_taken rfl).trans (pidByte_calcPID_slaveResponse _ hslot hpresent hkind hlen)
  rw [sendResponse_eq _ _ hlen] at hrun
  refine ⟨_, _, _, rfl, rfl, hrun, rfl, rfl, rfl, rfl, rfl, rfl, rfl, hkind, rfl, rfl, rfl, rfl,
    dataOf_echoContext _ _ hlen, bufAt_echoContext _ _ hlen, fun k hk => ?above, rfl⟩
  case above => exact bufAt_bufFill_of_le _ _ ((responseBytes_length _ _).trans_le hk)

/-! ### A byte in ReceivingData (R133) -/

/-- FC with the byte stored at FC.idx and FC.idx advanced. -/
def storeByte (b : Byte) (fc : FrameContext) : FrameContext :=
  { fc with buf := bufSet fc.buf fc.idx.toNat b, idx := fc.idx + 1#4 }

theorem dataByte_eq (b : Byte) (hs : inPhase .receivingData s) (hidx : s.fc.idx.toNat ≤ 8) :
    dataByte b s = .next (goto (payloadPhase (storeByte b s.fc)) (setFC (storeByte b s.fc) s)) := by
  have hstay : setFC (storeByte b s.fc) s = goto .receivingData (setFC (storeByte b s.fc) s) := by
    unfold goto setFC
    rw [← hs]
  have hrule : dataByte b s = .next (if (storeByte b s.fc).idx = (storeByte b s.fc).len then
      goto .waitForChecksum (setFC (storeByte b s.fc) s) else setFC (storeByte b s.fc) s) := if_pos hidx
  rw [hrule, payloadPhase]
  split
  · rfl
  · rw [← hstay]

/-- The index of a byte of the buffer does not wrap when it advances. -/
theorem idx_add_one_toNat {idx : Nibble} (h : idx.toNat ≤ 8) : (idx + 1#4).toNat = idx.toNat + 1 := by
  bv_omega

theorem payloadPhase_storeByte_code (b : Byte) {fc : FrameContext} (hidx : fc.idx.toNat ≤ 8) :
    (payloadPhase (storeByte b fc)).code = if fc.idx.toNat + 1 = fc.len.toNat then 0x40#8 else 0x10#8 := by
  have hfull : fc.idx + 1#4 = fc.len ↔ fc.idx.toNat + 1 = fc.len.toNat := by
    rw [← BitVec.toNat_inj, idx_add_one_toNat hidx]
  simp only [payloadPhase, storeByte, hfull, apply_ite Phase.code]
  rfl

/-- Settles O48: the byte's rule (`dataByte_eq`), byte by byte of the buffer. -/
theorem processStoresDataByte : Obligations.ProcessStoresDataByte := by
  intro b rest s hpend hidx
  have hrun : exec .process s = _ := (hpend.processStep_taken rfl).trans (dataByte_eq b hpend.phase hidx)
  exact ⟨_, hrun, rfl, bufAt_bufSet_same _ b hidx, fun k hk => bufAt_bufSet_of_ne _ b hk, idx_add_one_toNat hidx, rfl,
    payloadPhase_storeByte_code b hidx, rfl⟩

/-! ### A byte in WaitForChecksum (R134 to R136) -/

/-- The snapshot's data: the frame's, then 0x00 up to eight (R28). -/
theorem snapshotOf_data (kind : FrameKind) (fc : FrameContext) (hlen : fc.len.toNat ≤ 8) :
    (snapshotOf kind fc).data.toList = dataOf fc ++ List.replicate (8 - fc.len.toNat) 0x00#8 := by
  have hdata := dataOf_length fc hlen
  rw [snapshotOf, padData_toList _ (by omega), hdata]

theorem checksumByte_of_eq (hlen : s.fc.len.toNat ≤ 8) (hb : b = checksum P.version s.fc.pid s.fc.id (dataOf s.fc)) :
    checksumByte P b s = .next (completeMasterRequest s) := by
  simp [checksumByte, hlen, chkOK, hb]

theorem checksumByte_of_ne (hlen : s.fc.len.toNat ≤ 8) (hb : b ≠ checksum P.version s.fc.pid s.fc.id (dataOf s.fc)) :
    checksumByte P b s = .next (errorEntry .chk s) := by
  simp [checksumByte, hlen, chkOK, hb]

/-- Settles O49: the byte's rule, on a match and on a mismatch. -/
theorem processChecksMasterRequest : Obligations.ProcessChecksMasterRequest := by
  intro b rest s hpend hlen
  have hrun : exec .process s = checksumByte Config.params b (taken rest s) := hpend.processStep_taken rfl
  refine ⟨fun hb => ?completes, fun hb htxen => ?aborts⟩
  case completes =>
    exact ⟨_, hrun.trans (checksumByte_of_eq hlen hb), rfl, rfl, rfl, rfl, snapshotOf_data .mr s.fc hlen, rfl⟩
  case aborts =>
    exact (hrun.trans (checksumByte_of_ne hlen hb)).trans (congrArg _ (errorEntry_of_txen_false .chk htxen))

/-! ### A byte in ReceivingEcho (R137 to R140) -/

section
variable (hidx : s.fc.idx.toNat ≤ 8)
include hidx

theorem echoByte_of_ne (hb : b ≠ bufAt s.fc.buf s.fc.idx.toNat) : echoByte b s = .next (errorEntry .echo s) := by
  simp [echoByte, hidx, hb]

theorem echoByte_of_more (hb : b = bufAt s.fc.buf s.fc.idx.toNat) (hmore : s.fc.idx ≠ s.fc.len) :
    echoByte b s = .next (setFC { s.fc with idx := s.fc.idx + 1#4 } s) := by
  simp [echoByte, hidx, hb, BitVec.toNat_inj, hmore]

theorem echoByte_of_last (hb : b = bufAt s.fc.buf s.fc.idx.toNat) (hlast : s.fc.idx = s.fc.len) :
    echoByte b s = .next (completeSlaveResponse s) := by
  have hcount : s.fc.idx.toNat + 1 = s.fc.len.toNat + 1 := by rw [hlast]
  rw [echoByte, if_pos hidx, if_pos hb]
  exact congrArg Host.Outcome.next (if_pos hcount)

end

/-- Settles O50: the byte's rule, on a match before the last byte, at the last one, and on a mismatch. -/
theorem processChecksEcho : Obligations.ProcessChecksEcho := by
  intro b rest s hpend hidx
  have hrun : exec .process s = echoByte b (taken rest s) := hpend.processStep_taken rfl
  refine ⟨fun hb hmore => ?goesOn, fun hb hlast => ?completes, fun hb => ?aborts⟩
  case goesOn => exact hrun.trans (echoByte_of_more hidx hb hmore)
  case completes =>
    have hdata := snapshotOf_data .sr s.fc (hlast ▸ hidx)
    exact ⟨_, hrun.trans (echoByte_of_last hidx hb hlast), rfl, rfl, rfl, hdata, rfl⟩
  case aborts => exact hrun.trans (echoByte_of_ne hidx hb)

end Sys2Proof.Machine
end

section
/-! PROOFS. Whole frames on the bus: a run of issued operations, put together piece by piece (O57, O58). -/

namespace Sys2Proof.Machine

variable {P : Params} {s t u : State} {ph : Phase} {b : Byte} {is js : List Instr}

/-! ### Runs of issued operations -/

/-- The words issued are replaced. -/
def setOps (ws : List Word) (s : State) : State := { s with ops := ws }

/-- Running the operations `is`, one step each, leads from `s` to `t`, whatever is issued after them. -/
def Runs (P : Params) (is : List Instr) (s t : State) : Prop :=
  ∀ later : List Word, runOn P is.length (setOps (is.map encode ++ later) s) = .next (setOps later t)

theorem Runs.nil (P : Params) (s : State) : Runs P [] s s := fun _ => rfl

theorem runOn_add {j k : Nat} (h : runOn P j s = .next t) : runOn P (j + k) s = runOn P k t := by
  induction j generalizing s with
  | zero => cases h; rw [Nat.zero_add]
  | succ j ih =>
    rw [Nat.succ_add]
    simp only [runOn] at h ⊢
    split at h
    · exact ih h
    · cases h
    · cases h

theorem Runs.append (h : Runs P is s t) (h' : Runs P js t u) : Runs P (is ++ js) s u := by
  intro later
  rw [List.length_append, List.map_append, List.append_assoc, runOn_add (h (js.map encode ++ later)), h' later]

theorem Runs.of_issued {later : List Word} (h : Runs P is s t) (hops : s.ops = is.map encode ++ later) :
    runOn P is.length s = .next (setOps later t) := by
  have hself : setOps (is.map encode ++ later) s = s := hops ▸ rfl
  exact hself ▸ h later

/-- One operation is one step, and what it does does not depend on the words issued after it. -/
theorem runs_singleton {i : Instr} (hi : i.wellFormed = true)
    (hex : ∀ ws, execOn P i (setOps ws s) = .next (setOps ws t)) : Runs P [i] s t := by
  intro later
  have hstep : stepOn P (setOps (encode i :: later) s) = .next (setOps later t) :=
    (cycle_of_instr (execOn P) rfl (decodeOfEncode i hi)).trans (hex later)
  simp only [List.length_singleton, List.map_cons, List.map_nil, List.singleton_append, runOn, hstep]

/-! ### A break, and a byte, signalled and processed (R91) -/

/-- A frame in flight with nothing pending, its last byte taken at NOW: the next byte is not late. -/
structure Listening (ph : Phase) (s : State) : Prop where
  phase : inPhase ph s
  inFrame : ph.inFrame = true
  rxq : s.rxq = []
  brk : s.brk = false
  stamped : s.fc.tLast = s.now

/-- The first byte at an empty queue is queued, whatever the depth but 0 (R30, R203). -/
theorem receive_of_rxq_nil (hdepth : P.rxDepth ≠ some 0) (hrxq : s.rxq = []) : receive P b s = setRxq [b] s := by
  rcases receive_cases P b s with ⟨_, he⟩ | ⟨hfull, _⟩
  · rw [he, hrxq]
    rfl
  · obtain ⟨depth, hd, hle⟩ := rxHasRoom_eq_false_iff.mp hfull
    rw [hrxq, List.length_nil, Nat.le_zero] at hle
    exact absurd (hle ▸ hd) hdepth

theorem stamp_eq_self (h : s.fc.tLast = s.now) : stamp s = s := by
  have hfc : { s.fc with tLast := s.now } = s.fc := by rw [← h]
  rw [stamp, hfc]

theorem setRxq_eq_self {q : List Byte} (h : s.rxq = q) : setRxq q s = s := h ▸ rfl

theorem Listening.issued (h : Listening ph s) (ws : List Word) : Listening ph (setOps ws s) :=
  ⟨h.phase, h.inFrame, h.rxq, h.brk, h.stamped⟩

/-- With the byte in the queue its rule runs on the state before the byte came. -/
theorem Listening.processStep_eq (h : Listening ph s) : processStep P (setRxq [b] s) = dispatchByte P ph b s := by
  have hpend : BytePending P ph b [] (setRxq [b] s) :=
    ⟨h.phase, fun _ => by simp [elapsedTicks, h.stamped], h.brk, rfl⟩
  have hsame : taken [] (setRxq [b] s) = s :=
    calc taken [] (setRxq [b] s) = stamp (setRxq [] s) := rfl
      _ = stamp s := by rw [setRxq_eq_self h.rxq]
      _ = s := stamp_eq_self h.stamped
  rw [hpend.processStep_taken h.inFrame, hsame]

theorem Listening.runs_rxp (h : Listening ph s) (hdepth : P.rxDepth ≠ some 0)
    (hd : ∀ ws, dispatchByte P ph b (setOps ws s) = .next (setOps ws t)) : Runs P (rxp b) s t := by
  have hrx : Runs P [.rxByte b] s (setRxq [b] s) :=
    runs_singleton rfl fun ws => congrArg Host.Outcome.next (receive_of_rxq_nil hdepth h.rxq)
  have hprocess : Runs P [.process] (setRxq [b] s) t := runs_singleton rfl fun ws =>
    (h.issued ws).processStep_eq.trans (hd ws)
  exact hrx.append hprocess

theorem runs_brkp (hs : inPhase .waitForBreak s ∨ inPhase .done s) : Runs P brkp s (breakStart s) := by
  have hbreak : Runs P [.breakIn] s (setBrk true s) := runs_singleton rfl fun ws => rfl
  have hprocess : Runs P [.process] (setBrk true s) (breakStart s) := runs_singleton rfl fun ws => by
    rcases hs with hs | hs
    · exact processStep_of_break (ph := .waitForBreak) hs (by decide) rfl rfl
    · exact processStep_of_break (ph := .done) hs (by decide) rfl rfl
  exact hbreak.append hprocess

/-! ### The lengths of the pieces (R91) -/

theorem linData_append (bs cs : List Byte) : linData (bs ++ cs) = linData bs ++ linData cs := List.flatMap_append

theorem linData_length (bs : List Byte) : (linData bs).length = 2 * bs.length := by
  induction bs with
  | nil => rfl
  | cons b bs ih => rw [List.length_cons, Nat.mul_add, ← ih]; rfl

theorem linHdr_length (x : Byte) : (linHdr x).length = 6 := rfl

theorem linMreq_length (v : Version) (x : Byte) (data : List Byte) :
    (linMreq v x data).length = 2 * data.length + 8 := by
  simp [linMreq, linHdr_length, rxp, linData_length]
  omega

/-! ### The header (R123, R126, R91) -/

/-- The state in which the PID of a new frame is awaited. -/
def awaitingPid (s : State) : State := goto .waitForPid (breakStart s)

theorem runs_linHdr {x : Byte} (hs : inPhase .waitForBreak s ∨ inPhase .done s) (hrxq : s.rxq = [])
    (hdepth : P.rxDepth ≠ some 0)
    (hpid : ∀ ws, pidByte P (calcPID x) (setOps ws (awaitingPid s)) = .next (setOps ws t)) :
    Runs P (linHdr x) s t := by
  have hsync : Listening .waitForSync (breakStart s) := ⟨rfl, rfl, hrxq, rfl, rfl⟩
  have hsyncByte : Runs P (rxp 0x55#8) (breakStart s) (awaitingPid s) := hsync.runs_rxp hdepth fun ws => rfl
  have hlisten : Listening .waitForPid (awaitingPid s) := ⟨rfl, rfl, hrxq, rfl, rfl⟩
  exact ((runs_brkp hs).append hsyncByte).append (hlisten.runs_rxp hdepth hpid)

/-! ### A registered frame, to its PID (R130) -/

/-- FC when the PID of the ID in `x`, looked up in the slot, has been latched in a new frame (R130). -/
def latchedContext (x : Byte) (e : Slot) (s : State) : FrameContext :=
  { FrameContext.zero with
    pid := calcPID x, id := idOf x, kind := e.kind, len := e.len, h := e.handle, tLast := s.now }

section
variable (x : Byte) (e : Slot) (s : State)

@[simp] theorem latchedContext_pid : (latchedContext x e s).pid = calcPID x := rfl
@[simp] theorem latchedContext_id : (latchedContext x e s).id = idOf x := rfl
@[simp] theorem latchedContext_len : (latchedContext x e s).len = e.len := rfl
@[simp] theorem latchedContext_h : (latchedContext x e s).h = e.handle := rfl
@[simp] theorem awaitingPid_events : (awaitingPid s).events = s.events := rfl

end

/-- A slot registered for the ID in `x` in a state in which a break starts the next frame. -/
structure Registered (P : Params) (x : Byte) (e : Slot) (s : State) : Prop where
  phase : inPhase .waitForBreak s ∨ inPhase .done s
  rxq : s.rxq = []
  depth : P.rxDepth ≠ some 0
  slot : slotAt s (idOf x) = e
  present : e.present = true

/-! ### The payload of a master request (R133) -/

/-- FC with the bytes stored one after the other. -/
def storeBytes (bs : List Byte) (fc : FrameContext) : FrameContext := bs.foldl (fun fc b => storeByte b fc) fc

/-- Storing bytes writes the buffer and FC.idx alone. -/
theorem storeBytes_eq (bs : List Byte) (fc : FrameContext) :
    storeBytes bs fc = { fc with buf := (storeBytes bs fc).buf, idx := (storeBytes bs fc).idx } := by
  induction bs generalizing fc with
  | nil => rfl
  | cons b bs ih => exact ih (storeByte b fc)

section
variable (bs : List Byte) (fc : FrameContext)

@[simp] theorem storeBytes_pid : (storeBytes bs fc).pid = fc.pid := by rw [storeBytes_eq]
@[simp] theorem storeBytes_id : (storeBytes bs fc).id = fc.id := by rw [storeBytes_eq]
@[simp] theorem storeBytes_len : (storeBytes bs fc).len = fc.len := by rw [storeBytes_eq]
@[simp] theorem storeBytes_h : (storeBytes bs fc).h = fc.h := by rw [storeBytes_eq]
@[simp] theorem storeBytes_tLast : (storeBytes bs fc).tLast = fc.tLast := by rw [storeBytes_eq]

end

theorem storeBytes_take (bs : List Byte) {fc : FrameContext} (hlen : fc.idx.toNat + bs.length ≤ 9) :
    (storeBytes bs fc).buf.toList.take (fc.idx.toNat + bs.length) = fc.buf.toList.take fc.idx.toNat ++ bs := by
  induction bs generalizing fc with
  | nil => simp [storeBytes]
  | cons b bs ih =>
    rw [List.length_cons] at hlen
    have hidx : (storeByte b fc).idx.toNat = fc.idx.toNat + 1 := idx_add_one_toNat (by omega)
    have hstored : (storeByte b fc).buf.toList.take (fc.idx.toNat + 1) = fc.buf.toList.take fc.idx.toNat ++ [b] :=
      bufSet_take fc.buf _ b (by omega)
    calc (storeBytes bs (storeByte b fc)).buf.toList.take (fc.idx.toNat + (bs.length + 1))
        = (storeBytes bs (storeByte b fc)).buf.toList.take ((storeByte b fc).idx.toNat + bs.length) := by
          rw [hidx, Nat.add_right_comm, Nat.add_assoc]
      _ = (storeByte b fc).buf.toList.take (storeByte b fc).idx.toNat ++ bs := ih (by omega)
      _ = fc.buf.toList.take fc.idx.toNat ++ b :: bs := by rw [hidx, hstored, List.append_assoc, List.singleton_append]

/-- The payload of a whole frame. -/
theorem dataOf_storeBytes {data : List Byte} {fc : FrameContext} (hidx : fc.idx = 0#4)
    (hdata : fc.len.toNat = data.length) (hlen : data.length ≤ 8) : dataOf (storeBytes data fc) = data := by
  have htake := storeBytes_take data (fc := fc) (by rw [hidx]; simp; omega)
  rw [dataOf, storeBytes_len, hdata]
  simpa [hidx] using htake

theorem payloadPhase_inFrame (fc : FrameContext) : (payloadPhase fc).inFrame = true := by
  unfold payloadPhase
  split <;> rfl

theorem runs_linData_payload (hdepth : P.rxDepth ≠ some 0) (bs : List Byte) (h : Listening (payloadPhase s.fc) s)
    (hidx : s.fc.idx.toNat + bs.length = s.fc.len.toNat) (hlen : s.fc.len.toNat ≤ 8) :
    Runs P (linData bs) s (goto .waitForChecksum (setFC (storeBytes bs s.fc) s)) := by
  induction bs generalizing s with
  | nil =>
    have hfull : s.fc.idx = s.fc.len := BitVec.eq_of_toNat_eq hidx
    have hphase : s.state = Phase.waitForChecksum.code := by simpa [inPhase, payloadPhase, hfull] using h.phase
    have hsame : goto .waitForChecksum (setFC s.fc s) = s := by
      unfold goto setFC
      rw [← hphase]
    exact hsame.symm ▸ Runs.nil P s
  | cons b bs ih =>
    rw [List.length_cons] at hidx
    have hmore : s.fc.idx ≠ s.fc.len := fun he => by rw [he] at hidx; omega
    have hle : s.fc.idx.toNat ≤ 8 := by omega
    have hidx' : (storeByte b s.fc).idx.toNat + bs.length = s.fc.len.toNat := by
      have hnext : (storeByte b s.fc).idx.toNat = s.fc.idx.toNat + 1 := idx_add_one_toNat hle
      omega
    have hdata : Listening .receivingData s := by simpa [payloadPhase, hmore] using h
    have hrule : Runs P (rxp b) s (goto (payloadPhase (storeByte b s.fc)) (setFC (storeByte b s.fc) s)) :=
      hdata.runs_rxp hdepth fun ws => dataByte_eq b hdata.phase hle
    exact hrule.append (ih ⟨rfl, payloadPhase_inFrame _, h.rxq, h.brk, h.stamped⟩ hidx' hlen)

/-! ### The echo of a slave response (R138) -/

theorem bufAt_of_dataOf_drop {fc : FrameContext} {k : Nat} {b : Byte} {bs : List Byte}
    (h : (dataOf fc).drop k = b :: bs) : bufAt fc.buf k = b ∧ (dataOf fc).drop (k + 1) = bs := by
  constructor
  · have hk : (dataOf fc)[k]? = some b := by rw [← Nat.add_zero k, ← List.getElem?_drop, h]; rfl
    have hbuf : fc.buf.toList[k]? = some b := by
      rw [dataOf, List.getElem?_take] at hk
      split at hk
      · exact hk
      · cases hk
    rw [bufAt, List.getD_eq_getElem?_getD, hbuf, Option.getD_some]
  · rw [← List.drop_drop, h, List.drop_one, List.tail_cons]

theorem runs_linData_echo (hdepth : P.rxDepth ≠ some 0) (bs : List Byte) (h : Listening .receivingEcho s)
    (hidx : s.fc.idx.toNat + bs.length = s.fc.len.toNat) (hlen : s.fc.len.toNat ≤ 8)
    (hdata : (dataOf s.fc).drop s.fc.idx.toNat = bs) :
    Runs P (linData bs) s (setFC { s.fc with idx := s.fc.len } s) := by
  induction bs generalizing s with
  | nil =>
    have hend : s.fc.idx = s.fc.len := BitVec.eq_of_toNat_eq hidx
    have hsame : setFC { s.fc with idx := s.fc.len } s = s := by
      unfold setFC
      rw [← hend]
    exact hsame.symm ▸ Runs.nil P s
  | cons b bs ih =>
    rw [List.length_cons] at hidx
    have hmore : s.fc.idx ≠ s.fc.len := fun he => by rw [he] at hidx; omega
    have hle : s.fc.idx.toNat ≤ 8 := by omega
    have hnext : (s.fc.idx + 1#4).toNat = s.fc.idx.toNat + 1 := idx_add_one_toNat hle
    have hidx' : (s.fc.idx + 1#4).toNat + bs.length = s.fc.len.toNat := by omega
    obtain ⟨hb, hrest⟩ := bufAt_of_dataOf_drop hdata
    rw [← hnext] at hrest
    have hrule : Runs P (rxp b) s (setFC { s.fc with idx := s.fc.idx + 1#4 } s) :=
      h.runs_rxp hdepth fun ws => echoByte_of_more hle hb.symm hmore
    exact hrule.append (ih ⟨h.phase, rfl, h.rxq, h.brk, h.stamped⟩ hidx' hlen hrest)

/-! ### A whole master request (R132 to R135) -/

/-- The state in which the payload of a master request is awaited, or its checksum when there is none. -/
def awaitingPayload (x : Byte) (e : Slot) (s : State) : State :=
  goto (payloadPhase (latchedContext x e s)) (setFC (latchedContext x e s) (awaitingPid s))

/-- The state in which the checksum of a master request with the data is awaited. -/
def awaitingChecksum (x : Byte) (e : Slot) (data : List Byte) (s : State) : State :=
  goto .waitForChecksum (setFC (storeBytes data (latchedContext x e s)) (awaitingPid s))

section
variable {x : Byte} {e : Slot} {data : List Byte} (h : Registered P x e s)
include h

theorem Registered.runs_masterRequestHeader (hkind : e.kind = .mr) : Runs P (linHdr x) s (awaitingPayload x e s) :=
  runs_linHdr h.phase h.rxq h.depth fun ws =>
    calc pidByte P (calcPID x) (setOps ws (awaitingPid s))
        = .next (startMasterRequest (setOps ws (setFC (latchedContext x e s) (awaitingPid s)))) :=
          pidByte_calcPID_masterRequest (s := setOps ws (awaitingPid s)) P h.slot h.present hkind
      _ = .next (setOps ws (awaitingPayload x e s)) := by rw [startMasterRequest_eq (by rfl)]; rfl

theorem Registered.runs_masterRequestPayload (hdata : e.len.toNat = data.length) (hlen : data.length ≤ 8) :
    Runs P (linData data) (awaitingPayload x e s) (awaitingChecksum x e data s) := by
  have hlisten : Listening (payloadPhase (awaitingPayload x e s).fc) (awaitingPayload x e s) :=
    ⟨rfl, payloadPhase_inFrame _, h.rxq, rfl, rfl⟩
  exact runs_linData_payload h.depth data hlisten ((Nat.zero_add _).trans hdata.symm) (hdata.trans_le hlen)

theorem Registered.runs_linMreq (hkind : e.kind = .mr) (hdata : e.len.toNat = data.length) (hlen : data.length ≤ 8) :
    Runs P (linMreq P.version x data) s (completeMasterRequest (awaitingChecksum x e data s)) := by
  have hstored : dataOf (storeBytes data (latchedContext x e s)) = data := dataOf_storeBytes rfl hdata hlen
  have hlisten : Listening .waitForChecksum (awaitingChecksum x e data s) :=
    ⟨rfl, rfl, h.rxq, rfl, storeBytes_tLast _ _⟩
  have hchecksum : Runs P (rxp (checksum P.version (calcPID x) (idOf x) data)) (awaitingChecksum x e data s)
      (completeMasterRequest (awaitingChecksum x e data s)) :=
    hlisten.runs_rxp h.depth fun ws => checksumByte_of_eq (s := setOps ws (awaitingChecksum x e data s))
      (by simp [awaitingChecksum, setOps, hdata, hlen])
      (by simp [awaitingChecksum, setOps, hstored])
  exact ((h.runs_masterRequestHeader hkind).append (h.runs_masterRequestPayload hdata hlen)).append hchecksum

end

/-- Settles O57: the run of the whole frame (`Registered.runs_linMreq`), and what the completed request leaves. -/
theorem masterRequestRoundTrip : Obligations.MasterRequestRoundTrip := by
  intro P s x data later e hphase hrxq hdepth hslot hpresent hkind hdata hlen hops
  have hreg : Registered P x e s := ⟨hphase, hrxq, hdepth, hslot, hpresent⟩
  have hrun := (hreg.runs_linMreq hkind hdata hlen).of_issued hops
  have hstored : dataOf (storeBytes data (latchedContext x e s)) = data := dataOf_storeBytes rfl hdata hlen
  rw [linMreq_length] at hrun
  refine ⟨setOps later (completeMasterRequest (awaitingChecksum x e data s)), hrun, rfl, rfl, rfl, ?events, ?lf, rfl,
    rfl, hrxq, rfl, rfl⟩
  case events => simp [setOps, completeMasterRequest, awaitingChecksum, hstored, idOf]
  case lf => simp [setOps, completeMasterRequest, awaitingChecksum, snapshotOf, hstored, idOf]

/-! ### A whole slave response (R131, R137 to R141) -/

/-- The state in which the first echo of the slave response is awaited. -/
def awaitingEcho (P : Params) (x : Byte) (e : Slot) (s : State) : State :=
  { awaitingPid s with
    state := Phase.receivingEcho.code
    fc := echoContext P (latchedContext x e s)
    txen := P.hasTxen || (awaitingPid s).txen
    tx := s.tx ++ responseBytes P (latchedContext x e s)
    events := s.events ++ [.srCall e.handle (idOf x) e.len] }

/-- The state in which the echo of the checksum is awaited. -/
def awaitingLastEcho (P : Params) (x : Byte) (e : Slot) (s : State) : State :=
  setFC { echoContext P (latchedContext x e s) with idx := e.len } (awaitingEcho P x e s)

section
variable {x : Byte} {e : Slot} (h : Registered P x e s)
include h

theorem Registered.runs_slaveResponseHeader (hkind : e.kind = .sr) (hlen : e.len.toNat ≤ 8) :
    Runs P (linHdr x) s (awaitingEcho P x e s) :=
  runs_linHdr h.phase h.rxq h.depth fun ws =>
    calc pidByte P (calcPID x) (setOps ws (awaitingPid s))
        = .next (sendResponse P (setOps ws (setFC (latchedContext x e s) (awaitingPid s)))) :=
          pidByte_calcPID_slaveResponse (s := setOps ws (awaitingPid s)) P h.slot h.present hkind hlen
      _ = .next (setOps ws (awaitingEcho P x e s)) := by
          rw [sendResponse_eq _ _ (by exact hlen)]
          rfl

theorem Registered.runs_slaveResponseData (hlen : e.len.toNat ≤ 8) :
    Runs P (linData (responseData P (latchedContext x e s))) (awaitingEcho P x e s) (awaitingLastEcho P x e s) := by
  have hlisten : Listening .receivingEcho (awaitingEcho P x e s) := ⟨rfl, rfl, h.rxq, rfl, rfl⟩
  exact runs_linData_echo h.depth _ hlisten ((Nat.zero_add _).trans (responseData_length P _)) hlen
    (dataOf_echoContext P (latchedContext x e s) hlen)

theorem Registered.runs_slaveResponse (hkind : e.kind = .sr) (hlen : e.len.toNat ≤ 8) :
    Runs P (linHdr x ++ linData (responseBytes P (latchedContext x e s))) s
      (completeSlaveResponse (awaitingLastEcho P x e s)) := by
  have hlisten : Listening .receivingEcho (awaitingLastEcho P x e s) := ⟨rfl, rfl, h.rxq, rfl, rfl⟩
  have hlast : Runs P (linData [checksum P.version (calcPID x) (idOf x) (responseData P (latchedContext x e s))])
      (awaitingLastEcho P x e s) (completeSlaveResponse (awaitingLastEcho P x e s)) :=
    hlisten.runs_rxp h.depth fun ws => echoByte_of_last (s := setOps ws (awaitingLastEcho P x e s)) hlen
      (bufAt_echoContext P (latchedContext x e s) hlen).symm rfl
  have hecho := (h.runs_slaveResponseData hlen).append hlast
  rw [← linData_append] at hecho
  exact (h.runs_slaveResponseHeader hkind hlen).append hecho

end

/-- Settles O58: the run of the header and the echo (`Registered.runs_slaveResponse`), and what the completed response
leaves. -/
theorem slaveResponseRoundTrip : Obligations.SlaveResponseRoundTrip := by
  intro P s x data c later e hphase hrxq hdepth hslot hpresent hkind hlen hdata hc hops
  subst hdata hc
  have hreg : Registered P x e s := ⟨hphase, hrxq, hdepth, hslot, hpresent⟩
  have hrun := (hreg.runs_slaveResponse hkind hlen).of_issued hops
  have hlength : (linHdr x ++ linData (responseBytes P (latchedContext x e s))).length = 2 * e.len.toNat + 8 := by
    simp [linHdr_length, linData_length]
    omega
  rw [hlength] at hrun
  have hsent : dataOf (awaitingLastEcho P x e s).fc = responseData P (latchedContext x e s) :=
    dataOf_echoContext P (latchedContext x e s) hlen
  refine ⟨setOps later (completeSlaveResponse (awaitingLastEcho P x e s)), hrun, rfl, rfl, rfl, rfl, rfl, ?lf, rfl,
    hrxq, rfl, rfl⟩
  case lf =>
    calc snapshotOf .sr (awaitingLastEcho P x e s).fc
        = { kind := .sr, id := idOf x, len := e.len, data := padData (responseData P (latchedContext x e s)) } := by
          rw [← hsent]
          rfl
      _ = _ := rfl

end Sys2Proof.Machine
end

section
/-! PROOFS. Registration: the slot it writes, the length contract, and the null callback (O34, O35, O36). -/

namespace Sys2Proof.Machine

/-! ### Within the length contract, and above it (R170 to R172) -/

section
variable {len : Byte} (kind : FrameKind) (idraw : Byte) (p : Bool) (h : Byte) (s : State)

theorem register_of_len_le (hlen : len.toNat ≤ 8) :
    register kind idraw len p h s = setSlot (slotIndex idraw) (slotOf kind len p h) s :=
  if_pos (decide_eq_true hlen)

theorem register_of_lt_len (hlen : 8 < len.toNat) :
    register kind idraw len p h s = { s with faults := s.faults ++ [.contractViolation len] } :=
  if_neg (by simpa [lengthOk] using hlen)

theorem slotAt_register_same (hlen : len.toNat ≤ 8) :
    slotAt (register kind idraw len p h s) (slotIndex idraw) = slotOf kind len p h := by
  rw [register_of_len_le kind idraw p h s hlen, slotAt_setSlot, if_pos rfl]

theorem slotAt_register_of_ne (len : Byte) {j : FrameId} (hj : j ≠ slotIndex idraw) :
    slotAt (register kind idraw len p h s) j = slotAt s j :=
  (slotAt_register kind idraw len p h s j).resolve_right fun hw => hj hw.1

theorem register_writes_only_table (hlen : len.toNat ≤ 8) :
    register kind idraw len p h s = { s with table := (register kind idraw len p h s).table } := by
  rw [register_of_len_le kind idraw p h s hlen]
  rfl

end

/-- Settles O34: the slot written, the other slots and the other elements, for a registration of either kind. -/
theorem registrationWritesSlot : Obligations.RegistrationWritesSlot := by
  refine ⟨rfl, rfl, fun idraw len p h => ⟨opcodeOf_encodeR .., rfl, opcodeOf_encodeR .., rfl, fun s hlen => ?_⟩⟩
  have hslot (kind : FrameKind) := slotAt_register_same kind idraw p h s hlen
  have hothers (kind : FrameKind) (j : FrameId) := slotAt_register_of_ne kind idraw p h s len (j := j)
  have hframe (kind : FrameKind) := register_writes_only_table kind idraw p h s hlen
  exact ⟨⟨_, rfl, hslot .mr, hothers .mr, hframe .mr⟩, ⟨_, rfl, hslot .sr, hothers .sr, hframe .sr⟩⟩

/-- Settles O35: either kind is `register`, which above the contract marks FAULTS alone; a marked state is not final. -/
theorem registrationLengthContract : Obligations.RegistrationLengthContract := by
  intro i idraw len p h s hlen hi
  refine ⟨?_, final_of_marked (.inl (by simp))⟩
  rcases hi with rfl | rfl
  · exact congrArg _ (register_of_lt_len .mr idraw p h s hlen)
  · exact congrArg _ (register_of_lt_len .sr idraw p h s hlen)

/-! ### The null callback (R173, R129) -/

/-- A registration writes nothing that PROCESS asks before it takes a byte (R120). -/
theorem BytePending.after_register {P : Params} {ph : Phase} {b : Byte} {rest : List Byte} {s : State}
    (hpend : BytePending P ph b rest s) (kind : FrameKind) (idraw len : Byte) (p : Bool) (h : Byte) :
    BytePending P ph b rest (register kind idraw len p h s) where
  phase := (register_state kind idraw len p h s).trans hpend.phase
  noTimeout hframe := by simpa [elapsedTicks] using hpend.noTimeout hframe
  noBreak := (register_brk kind idraw len p h s).trans hpend.noBreak
  queue := (register_rxq kind idraw len p h s).trans hpend.queue

/-- The PID step of an ID deregistered just before is the drop of R129. -/
theorem process_drops_deregistered {idraw len : Byte} {rest : List Byte} {s : State} (kind : FrameKind) (h : Byte)
    (hlen : len.toNat ≤ 8) (hpend : BytePending Config.params .waitForPid (calcPID idraw) rest s) :
    exec .process (register kind idraw len false h s) =
      .next { register kind idraw len false h s with state := 0x02#8, fc := FrameContext.zero, rxq := rest } :=
  processDropsUnregistered idraw rest _ (hpend.after_register kind idraw len false h)
    (congrArg Slot.present (slotAt_register_same kind idraw false h s hlen))

/-- A slot that a registration removes is the one it writes, with P = 0. -/
theorem register_removes_slot {kind : FrameKind} {idraw len : Byte} {p : Bool} {h : Byte} {s : State} {j : FrameId}
    (hbefore : (slotAt s j).present = true) (hafter : (slotAt (register kind idraw len p h s) j).present = false) :
    p = false ∧ len.toNat ≤ 8 ∧ j = slotIndex idraw := by
  rcases slotAt_register kind idraw len p h s j with hkept | ⟨hj, hlen, hwritten⟩
  · rw [hkept, hbefore] at hafter
    cases hafter
  · rw [hwritten] at hafter
    exact ⟨hafter, hlen, hj⟩

/-- What R173 says of the operations: only a registration with the null callback removes a slot. -/
theorem exec_removes_slot {i : Instr} {s t : State} {j : FrameId} (hexec : exec i s = .next t)
    (hbefore : (slotAt s j).present = true) (hafter : (slotAt t j).present = false) :
    ∃ idraw len h, (i = .regMreq idraw len false h ∨ i = .regSresp idraw len false h) ∧ len.toNat ≤ 8 ∧
      j = slotIndex idraw := by
  have htable := tableWrittenByRegistration i s t hexec
  cases i with
  | regMreq idraw len p h =>
    cases hexec
    obtain ⟨rfl, hlen, hj⟩ := register_removes_slot hbefore hafter
    exact ⟨idraw, len, h, .inl rfl, hlen, hj⟩
  | regSresp idraw len p h =>
    cases hexec
    obtain ⟨rfl, hlen, hj⟩ := register_removes_slot hbefore hafter
    exact ⟨idraw, len, h, .inr rfl, hlen, hj⟩
  | _ =>
    rw [slotAt_congr htable, hbefore] at hafter
    cases hafter

/-- Settles O36: the slot stored, the PID step after it (`process_drops_deregistered`), and `exec_removes_slot`. -/
theorem deregisteredFrameIsDropped : Obligations.DeregisteredFrameIsDropped := by
  refine ⟨fun idraw len h s rest hlen hpend => ?_, fun i s t j => exec_removes_slot⟩
  have hslot (kind : FrameKind) := slotAt_register_same kind idraw false h s hlen
  have hdrop (kind : FrameKind) := process_drops_deregistered kind h hlen hpend
  exact ⟨_, _, rfl, rfl, hslot .mr, hslot .sr, hdrop .mr, hdrop .sr⟩

end Sys2Proof.Machine
end

section
/-! PROOFS. OPEN, CLOSE and RESET_SM (O30): each ends the frame in flight (`endFrame_eq`); OPEN also drops the pending
break and flushes RXQ. -/

namespace Sys2Proof.Machine

/-- A field in the lowest bits of the word is the operand, zero-extended (R8). -/
theorem placed_at_zero {n : Nat} (x : BitVec n) : placed x 0 = x.setWidth 32 := BitVec.shiftLeft_zero _

theorem encode_openIf (baud : BitVec 24) : encode (.openIf baud) = 0x10000000#32 ||| baud.setWidth 32 :=
  congrArg (0x10000000#32 ||| ·) (placed_at_zero baud)

section
variable (s : State)

theorem exec_openIf (baud : BitVec 24) : exec (.openIf baud) s =
    .next { s with state := 0x02#8, fc := FrameContext.zero, txen := false, brk := false, rxq := [] } :=
  congrArg Host.Outcome.next (endFrame_eq .waitForBreak (setRxq [] (setBrk false s)))

theorem exec_closeIf : exec .closeIf s =
    .next { s with state := 0x01#8, fc := FrameContext.zero, txen := false } :=
  congrArg Host.Outcome.next (endFrame_eq .off s)

theorem exec_resetSm : exec .resetSm s =
    .next { s with state := 0x02#8, fc := FrameContext.zero, txen := false } :=
  congrArg Host.Outcome.next (endFrame_eq .waitForBreak s)

end

/-- Settles O30: the words (`encode_openIf`; the other two are evaluated) and the agents, and the effect of each
operation. -/
theorem lifecycleResults : Obligations.LifecycleResults :=
  ⟨fun baud => ⟨encode_openIf baud, rfl⟩, rfl, rfl, rfl, rfl,
    fun s baud => ⟨exec_openIf s baud, exec_closeIf s, exec_resetSm s⟩⟩

end Sys2Proof.Machine
end

section
/-! PROOFS. BREAK_IN, RX_BYTE and TICK: each one's whole effect (O31, O32), what a full receive queue becomes (O33), and
all that the transport can write (O27). -/

namespace Sys2Proof.Machine

variable {P : Params} {s t : State} {i : Instr} {depth : Nat}

/-! ### The words of the operations with a field (R72, R73) -/

theorem encode_rxByte (b : Byte) : encode (.rxByte b) = 0xC0000000#32 ||| b.setWidth 32 :=
  congrArg (0xC0000000#32 ||| ·) (placed_at_zero b)

theorem encode_tick (d : BitVec 28) : encode (.tick d) = 0xD0000000#32 ||| d.setWidth 32 :=
  congrArg (0xD0000000#32 ||| ·) (placed_at_zero d)

/-! ### BREAK_IN and TICK (R202, R204) -/

/-- The delta is zero-extended, so it is added as it is (R73). -/
theorem advance_tickDelta_now (d : BitVec 28) (s : State) :
    (advance (tickDelta d) s).now.toNat = (s.now.toNat + d.toNat) % 2 ^ 32 := by
  have hdelta : (tickDelta d).toNat = d.toNat := BitVec.toNat_setWidth_of_le (by decide)
  rw [advance, BitVec.toNat_add, hdelta]

/-- Settles O31: the words and the agents, and the effect of each operation; the sum is `advance_tickDelta_now`. -/
theorem breakInAndTickResults : Obligations.BreakInAndTickResults :=
  ⟨rfl, rfl, fun d => ⟨encode_tick d, rfl⟩, fun s d => ⟨rfl, _, rfl, advance_tickDelta_now d s, rfl⟩⟩

/-! ### RX_BYTE where there is room, and at a full queue (R203) -/

theorem rxHasRoom_iff : rxHasRoom P s = true ↔ ∀ depth, P.rxDepth = some depth → s.rxq.length < depth := by
  rw [← Bool.not_eq_false, rxHasRoom_eq_false_iff]
  simp only [not_exists, not_and, Nat.not_le]

theorem receive_of_room (b : Byte) (hroom : ∀ depth, P.rxDepth = some depth → s.rxq.length < depth) :
    receive P b s = { s with rxq := s.rxq ++ [b] } :=
  if_pos (rxHasRoom_iff.mpr hroom)

theorem receive_of_full (b : Byte) (hdepth : P.rxDepth = some depth) (hfull : depth ≤ s.rxq.length) :
    receive P b s = { s with rxq := (receive P b s).rxq, rxOverflows := s.rxOverflows + 1 } := by
  rcases receive_cases P b s with ⟨hroom, _⟩ | ⟨_, he⟩
  · exact absurd (rxHasRoom_iff.mp hroom depth hdepth) (Nat.not_lt.mpr hfull)
  · rw [he]

/-- Settles O32: the word, the agent, and `receive_of_room`. -/
theorem byteArrives : Obligations.ByteArrives :=
  ⟨fun b => ⟨encode_rxByte b, rfl⟩, fun _ b _ hroom => congrArg _ (receive_of_room b hroom)⟩

/-! ### A queue within its depth stays within it (R30) -/

/-- PROCESS only takes bytes off the queue: the oldest one, or all of them at a timeout. -/
theorem processStep_rxq_suffix (h : processStep P s = .next t) : t.rxq <:+ s.rxq := by
  refine processStep_elim (Q := fun u => u.rxq <:+ s.rxq) h ?illegal ?nothing ?timeout ?brk ?byte
  case illegal => exact List.suffix_rfl
  case nothing => exact List.suffix_rfl
  case timeout => exact List.nil_suffix
  case brk => exact fun _ => List.suffix_rfl
  case byte =>
    intro ph b rest _ _ _ hq hd
    have hrest : t.rxq = rest := by simpa using dispatchByte_rxq hd
    rw [hrest, hq]
    exact List.suffix_cons b rest

theorem execOn_keeps_depth (hdepth : P.rxDepth = some depth) (hs : s.rxq.length ≤ depth)
    (h : execOn P i s = .next t) : t.rxq.length ≤ depth := by
  cases i with
  | process => exact (processStep_rxq_suffix h).length_le.trans hs
  | rxByte b => cases h; exact receive_length P b s depth hdepth
  | openIf => cases h; exact Nat.zero_le depth
  | _ => cases h; simpa using hs

theorem stepOn_keeps_depth (hdepth : P.rxDepth = some depth) (hs : s.rxq.length ≤ depth)
    (h : stepOn P s = .next t) : t.rxq.length ≤ depth := by
  rcases cycle_cases (execOn P) s with ⟨_, he⟩ | ⟨w, rest, i, _, _, he⟩ | ⟨w, rest, why, _, _, he⟩
  · cases he.symm.trans h
    exact hs
  · exact execOn_keeps_depth (s := { s with ops := rest }) hdepth hs (he.symm.trans h)
  · cases he.symm.trans h
    exact hs

/-- Settles O33: an arrival by whether there is room (`receive_cases`, `receive_of_full`), and the depth at every
step. -/
theorem byteAlwaysAccepted : Obligations.ByteAlwaysAccepted := by
  refine ⟨fun b s => ⟨receive Config.params b s, rfl, ?accepted⟩, fun P b s depth hdepth hfull => ?overflow,
    fun P depth s t => stepOn_keeps_depth⟩
  case accepted =>
    rcases receive_cases Config.params b s with ⟨_, hqueued⟩ | ⟨hnoRoom, _⟩
    · exact .inl hqueued
    · obtain ⟨depth, hdepth, hfull⟩ := rxHasRoom_eq_false_iff.mp hnoRoom
      exact .inr ⟨depth, hdepth, hfull, receive_length _ b s depth hdepth, receive_of_full b hdepth hfull⟩
  case overflow =>
    exact ⟨_, receive_length P b s depth hdepth, congrArg _ (receive_of_full b hdepth hfull)⟩

/-! ### All that the transport can write (R206) -/

theorem receive_writes_queue_and_count (P : Params) (b : Byte) (s : State) : receive P b s =
    { s with rxq := (receive P b s).rxq, rxOverflows := (receive P b s).rxOverflows } := by
  rcases receive_cases P b s with ⟨_, he⟩ | ⟨_, he⟩ <;> rw [he]

/-- Settles O27: the transport has two operations; RX_BYTE is `receive_writes_queue_and_count`. -/
theorem transportActsOnBreakAndQueueOnly : Obligations.TransportActsOnBreakAndQueueOnly := by
  intro i s t hagent h
  cases i with
  | breakIn => cases h; exact ⟨rfl, fun _ => ⟨rfl, rfl⟩, fun hne => absurd rfl hne⟩
  | rxByte b =>
    cases h
    rw [receive_brk]
    exact ⟨receive_writes_queue_and_count Config.params b s, nofun, fun _ => rfl⟩
  | _ => cases hagent

end Sys2Proof.Machine
end

section
/-! PROOFS. The bits of ERR that no error of the machine has (O17): only the error entry sets a bit, never the one of
`misc`, and RESET_ERROR clears them all. -/

namespace Sys2Proof.Machine

variable {s t : State} {i : Instr} {k : ErrorKind}

/-- Of the seven kinds' bits, only `misc` has one among 0x40 and 0x80 (R79). -/
theorem mask_and_unused (hk : k ≠ .misc) : k.mask &&& 0xC0#8 = 0#8 := by
  cases k with
  | misc => exact absurd rfl hk
  | _ => rfl

theorem exec_unused_err (h : exec i s = .next t) : t.err = 0#8 ∨ t.err &&& 0xC0#8 = s.err &&& 0xC0#8 := by
  by_cases hreset : i = .resetError
  · subst hreset
    cases h
    exact .inl rfl
  right
  by_cases hprocess : i = .process
  · subst hprocess
    rcases processStep_err h with herr | ⟨k, u, hk, rfl, herr, _⟩
    · rw [herr]
    · rw [errorEntry_err, herr, or_and_of_and_eq_zero _ (mask_and_unused hk)]
  · rw [exec_err_of_other h hreset hprocess]

/-- ERR has no unused bit that the mask `e` does not have. -/
def UnusedErrWithin (e : Byte) (s : State) : Prop := (s.err &&& 0xC0#8) &&& ~~~e = 0#8

/-- For every `e`: with the ERR before a step this says what the step sets, with 0x00 what a run sets. -/
theorem unusedErrWithin_kept (e : Byte) : KeptByOperations (UnusedErrWithin e) where
  exec {i s t} hs h := by
    unfold UnusedErrWithin
    rcases exec_unused_err h with hzero | hsame
    · rw [hzero, BitVec.zero_and, BitVec.zero_and]
    · rw [hsame]
      exact hs
  ops _ h := h
  refused _ h := h

theorem unusedErrWithin_self (s : State) : UnusedErrWithin s.err s := by
  unfold UnusedErrWithin
  rw [BitVec.and_comm s.err, BitVec.and_assoc, BitVec.and_not_self]
  exact BitVec.and_zero

theorem unusedErrWithin_zero : UnusedErrWithin 0#8 s ↔ s.err &&& 0xC0#8 = 0#8 := by
  rw [UnusedErrWithin, BitVec.not_zero, BitVec.and_allOnes]

/-- Settles O17: one kept property, from a step's own ERR and from the 0x00 of reset. -/
theorem unusedErrorBitsNeverSet : Obligations.UnusedErrorBitsNeverSet :=
  ⟨fun s _ h => (unusedErrWithin_kept s.err).step (unusedErrWithin_self s) h,
    fun _ hs => unusedErrWithin_zero.mp ((unusedErrWithin_kept 0#8).reachable (unusedErrWithin_self State.reset) hs)⟩

end Sys2Proof.Machine
end

section
/-! PROOFS. The value of every state element at reset (O11): the two arrays, FC.buf and TABLE, are uniform at every
index; each other element is a field of `State.reset` as it stands there. -/

namespace Sys2Proof.Machine

@[simp] theorem bufAt_replicate_zero (k : Nat) : bufAt (Vector.replicate 9 0#8) k = 0#8 := by
  rw [bufAt, Vector.toList_replicate, List.getD_eq_getElem?_getD, List.getElem?_replicate]
  split <;> rfl

@[simp] theorem slotAt_reset (i : FrameId) : slotAt State.reset i = Slot.empty :=
  Vector.getElem_replicate i.isLt

/-- Settles O11: the buffer by `bufAt_replicate_zero` and the table by `slotAt_reset`, at every index; every other
element is read off `State.reset`. -/
theorem resetValues : Obligations.ResetValues := by
  refine ⟨rfl, rfl, rfl, rfl, rfl, rfl, rfl, ?buf, rfl, rfl, rfl, ?table, rfl, rfl, rfl, ?lfData,
    rfl, rfl, rfl, rfl, rfl, rfl, rfl, rfl⟩
  case buf => exact fun k _ => bufAt_replicate_zero k
  case table => exact slotAt_reset
  case lfData => exact Vector.toList_replicate

end Sys2Proof.Machine
end

section
/-! PROOFS. The words of 95 section 2.1 (O1): each is the encoding of one operation, so it decodes to the canonical form
of that operation (`decode_encode`). -/

namespace Sys2Proof

theorem decode_of_encode_eq {i : Instr} {w : Word} (hw : encode i = w) : decode w = .instr i.canonical :=
  hw ▸ decode_encode i

/-- Settles O1: for each word, the operation that it encodes. The word 0x30F0032A has H = 0x0F with P = 0, a handle that
the canonical form drops (R92). -/
theorem decodeSpecWords : Obligations.DecodeSpecWords :=
  ⟨decode_of_encode_eq (i := .openIf 19200#24) rfl,
    decode_of_encode_eq (i := .closeIf) rfl,
    decode_of_encode_eq (i := .regMreq 0x2A#8 2#8 true 0x09#8) rfl,
    decode_of_encode_eq (i := .regMreq 0x2A#8 2#8 false 0x00#8) rfl,
    decode_of_encode_eq (i := .regMreq 0x2A#8 3#8 false 0x0F#8) rfl,
    decode_of_encode_eq (i := .regSresp 0x10#8 4#8 true 0x07#8) rfl,
    decode_of_encode_eq (i := .regSresp 0x2A#8 8#8 true 0xFF#8) rfl,
    decode_of_encode_eq (i := .process) rfl,
    decode_of_encode_eq (i := .getState) rfl,
    decode_of_encode_eq (i := .getError) rfl,
    decode_of_encode_eq (i := .resetError) rfl,
    decode_of_encode_eq (i := .resetSm) rfl,
    decode_of_encode_eq (i := .getLastFrame) rfl,
    decode_of_encode_eq (i := .breakIn) rfl,
    decode_of_encode_eq (i := .rxByte 0x50#8) rfl,
    decode_of_encode_eq (i := .tick 0xFFFFFFF#28) rfl⟩

end Sys2Proof
end
